-- ==== Sys2Proof/Word.lean ====
section
/-!
DEFINITION. The word types of the core (00_scope.md R11; widths of 10_state.md R49 and 30_encoding.md R86).
Signed 16-bit values (`s16`) are kept as their two's-complement pattern and read with `BitVec.toInt`.
-/

namespace Sys2Proof

/-- `u8`: a byte of the stream, of the frame buffer, of an operand. -/
abbrev Byte := BitVec 8

/-- `u16`: CRC values, rates, the overflow counter. -/
abbrev Half := BitVec 16

/-- `s16` as its 16-bit pattern: velocities and bounds (00_scope.md R8, `VEL_W`). -/
abbrev Velocity := BitVec 16

/-- `u20`: a timer compare value (00_scope.md R8, `CMP_W`). -/
abbrev Compare := BitVec 20

/-- `u64`: a Command in the layout of 30_encoding.md R82, and the data of a response. -/
abbrev Command := BitVec 64

/-- The 72-bit event word that encodes an operation (30_encoding.md R86). -/
abbrev EventWord := BitVec 72

end Sys2Proof
end

