-- ==== Sys2Proof/Syntax.lean ====
section
/-!
DEFINITION. The syntax of the core: its ports, its twelve operations (30_encoding.md R91, one constructor per row of
spec/opcode_table.json), the status codes (60_exceptions.md R220), what can arrive at the core and what it emits.
-/

namespace Sys2Proof

/-- The three input ports, the agents of the core (00_scope.md R15; 10_state.md R43, R44, R45). -/
inductive Port
  | host | rx | timer
deriving DecidableEq, Repr

/-- An operation with its operands (30_encoding.md R91; operand extraction by R87 to R90). -/
inductive Instr
  /-- CRC.INIT (R114). -/
  | crcInit
  /-- CRC.BYTE (R115). -/
  | crcByte (byte : Byte)
  /-- CRC.READ (R116). -/
  | crcRead
  /-- RX.BYTE (R130). -/
  | rxByte (byte : Byte)
  /-- ST.POP (R162). -/
  | stPop
  /-- ST.LEN (R163). -/
  | stLen
  /-- ST.OVF (R164). -/
  | stOvf
  /-- RG.CFG (R181). -/
  | rgCfg (accel decel : Half) (min max : Velocity) (be : Bool)
  /-- RG.SETT (R185). -/
  | rgSett (t : Velocity)
  /-- RG.CUR (R195). -/
  | rgCur
  /-- RG.TGT (R196). -/
  | rgTgt
  /-- TICK (R190). -/
  | tick
deriving DecidableEq, Repr

/-- The only port an operation may arrive on (30_encoding.md R91; 60_exceptions.md R229). -/
def Instr.port : Instr → Port
  | .crcInit           => .host
  | .crcByte _         => .host
  | .crcRead           => .host
  | .rxByte _          => .rx
  | .stPop             => .host
  | .stLen             => .host
  | .stOvf             => .host
  | .rgCfg _ _ _ _ _   => .host
  | .rgSett _          => .host
  | .rgCur             => .host
  | .rgTgt             => .host
  | .tick              => .timer

/-- The status codes (60_exceptions.md R220); codes 6 to 15 are never returned and have no constructor. -/
inductive Status
  | ok | empty | ignored | errCfg | errNocfg | errIllegal
deriving DecidableEq, Repr

/-- The four bits of a status (60_exceptions.md R220; 30_encoding.md R96). -/
def Status.code : Status → BitVec 4
  | .ok         => 0x0#4
  | .empty      => 0x1#4
  | .ignored    => 0x2#4
  | .errCfg     => 0x3#4
  | .errNocfg   => 0x4#4
  | .errIllegal => 0x5#4

/-- The levels of the input pins at one rising clock edge (10_state.md R42 to R45). -/
structure InPins where
  rst     : Bool
  hValid  : Bool
  hWord   : EventWord
  rxValid : Bool
  rxData  : Byte
  tick    : Bool
deriving DecidableEq, Repr

/-- What arrives at the core from outside: an event word at a port (the trace level, 00_scope.md R15), or one rising
clock edge with its pin levels (the pin level, 10_state.md R42 to R45). -/
inductive Arrival
  | op (port : Port) (word : EventWord)
  | edge (pins : InPins)
deriving DecidableEq, Repr

/-- What an operation sends out (10_state.md R21): its response to a port (30_encoding.md R96), an acknowledgment
byte, a velocity (00_scope.md R14), and the three timer events (60_exceptions.md R231). -/
inductive OutEvent
  | response (port : Port) (status : Status) (data : BitVec 64)
  | ack (byte : Byte)
  | vel (v : Velocity)
  | setPeriod (c : Compare)
  | timerStart
  | timerStop
deriving DecidableEq, Repr

end Sys2Proof
end

