-- ==== Sys2Proof/Decode.lean ====
section
/-!
DEFINITION. The decoder of event words (30_encoding.md R86 to R94), total and rejecting by name, and after it the
encoder, written from the same tables.
-/

namespace Sys2Proof

/-- The operations without their operands, one per row of 30_encoding.md R91. -/
inductive Op
  | crcInit | crcByte | crcRead | rxByte | stPop | stLen | stOvf | rgCfg | rgSett | rgCur | rgTgt | tick
deriving DecidableEq, Repr

/-- One row of the opcode map: `w` is the operation exactly when `w and mask = pattern` (30_encoding.md R91). -/
structure Row where
  op      : Op
  port    : Port
  pattern : EventWord
  mask    : EventWord
deriving DecidableEq, Repr

/-- The mask of format N: every bit above the opcode is reserved (30_encoding.md R87). -/
def maskN : EventWord := 0xFFFFFFFFFFFFFFFFFF#72

/-- The mask of format B: bits 15 to 8 are the operand (30_encoding.md R88). -/
def maskB : EventWord := 0xFFFFFFFFFFFFFF00FF#72

/-- The mask of format H: bits 23 to 8 are the operand (30_encoding.md R89). -/
def maskH : EventWord := 0xFFFFFFFFFFFF0000FF#72

/-- The mask of format C: only bits 7 to 5 are reserved (30_encoding.md R90). -/
def maskC : EventWord := 0x0000000000000000EF#72

/-- The opcode map (30_encoding.md R91). -/
def opcodeMap : List Row :=
  [ ⟨.crcInit, .host,  0x000000000000000001#72, maskN⟩,
    ⟨.crcByte, .host,  0x000000000000000002#72, maskB⟩,
    ⟨.crcRead, .host,  0x000000000000000003#72, maskN⟩,
    ⟨.rxByte,  .rx,    0x000000000000000004#72, maskB⟩,
    ⟨.stPop,   .host,  0x000000000000000005#72, maskN⟩,
    ⟨.stLen,   .host,  0x000000000000000006#72, maskN⟩,
    ⟨.stOvf,   .host,  0x000000000000000007#72, maskN⟩,
    ⟨.rgCfg,   .host,  0x000000000000000008#72, maskC⟩,
    ⟨.rgSett,  .host,  0x000000000000000009#72, maskH⟩,
    ⟨.rgCur,   .host,  0x00000000000000000A#72, maskN⟩,
    ⟨.rgTgt,   .host,  0x00000000000000000B#72, maskN⟩,
    ⟨.tick,    .timer, 0x00000000000000000C#72, maskN⟩ ]

/-- `w` is the operation of row `r` (30_encoding.md R91). -/
def Row.holds (r : Row) (w : EventWord) : Bool := w &&& r.mask == r.pattern

/-- The row of a word, at most one since the masks make the rows disjoint (30_encoding.md R92 step 1). -/
def findRow (w : EventWord) : Option Row := opcodeMap.find? (fun r => r.holds w)

/-- The opcode field `w[3:0]` (30_encoding.md R86). -/
def opcodeOf (w : EventWord) : BitVec 4 := w.extractLsb' 0 4

/-- `w[15:8]` of format B (30_encoding.md R88). -/
def byteOf (w : EventWord) : Byte := w.extractLsb' 8 8

/-- `w[23:8]` of format H (30_encoding.md R89). -/
def imm16Of (w : EventWord) : Half := w.extractLsb' 8 16

/-- The operands of format C (30_encoding.md R90). -/
def accelOf (w : EventWord) : Half := w.extractLsb' 8 16
def decelOf (w : EventWord) : Half := w.extractLsb' 24 16
def minOf (w : EventWord) : Velocity := w.extractLsb' 40 16
def maxOf (w : EventWord) : Velocity := w.extractLsb' 56 16
def beOf (w : EventWord) : Bool := w.getLsbD 4

/-- Operand extraction, which never fails (30_encoding.md R92 step 4). -/
def Op.extract (w : EventWord) : Op → Instr
  | .crcInit => .crcInit
  | .crcByte => .crcByte (byteOf w)
  | .crcRead => .crcRead
  | .rxByte  => .rxByte (byteOf w)
  | .stPop   => .stPop
  | .stLen   => .stLen
  | .stOvf   => .stOvf
  | .rgCfg   => .rgCfg (accelOf w) (decelOf w) (minOf w) (maxOf w) (beOf w)
  | .rgSett  => .rgSett (imm16Of w)
  | .rgCur   => .rgCur
  | .rgTgt   => .rgTgt
  | .tick    => .tick

/-- Why a word is illegal (30_encoding.md R93, R94). -/
inductive Illegal
  /-- Opcode 0x0, 0xD, 0xE or 0xF (R93). -/
  | unassignedOpcode
  /-- A reserved bit of the opcode's format is 1 (R93). -/
  | reservedBit
  /-- The row's port is not the port of arrival (R94). -/
  | wrongPort
deriving DecidableEq, Repr

/-- What the decoder answers. -/
inductive Decoded
  | operation (i : Instr)
  | illegal (why : Illegal)
deriving DecidableEq, Repr

/-- The opcodes 0x0, 0xD, 0xE, 0xF are unassigned (30_encoding.md R91). -/
def unassigned (op : BitVec 4) : Bool := op == 0x0#4 || op == 0xD#4 || op == 0xE#4 || op == 0xF#4

/-- The name under which a word that matches no row is rejected (30_encoding.md R93). -/
def noRow (w : EventWord) : Illegal := if unassigned (opcodeOf w) then .unassignedOpcode else .reservedBit

/-- Decoding without the port check: the operation whose row the word matches (30_encoding.md R92 steps 1, 2, 4). -/
def decode (w : EventWord) : Decoded :=
  match findRow w with
  | none   => .illegal (noRow w)
  | some r => .operation (r.op.extract w)

/-- Decoding a word at the port it arrived on (30_encoding.md R92, all four steps). -/
def decodeAt (p : Port) (w : EventWord) : Decoded :=
  match findRow w with
  | none   => .illegal (noRow w)
  | some r => if r.port = p then .operation (r.op.extract w) else .illegal .wrongPort

/-- Format N (30_encoding.md R87). -/
def encodeN (op : BitVec 4) : EventWord := 0#68 ++ op

/-- Format B (30_encoding.md R88). -/
def encodeB (op : BitVec 4) (byte : Byte) : EventWord := 0#56 ++ byte ++ 0#4 ++ op

/-- Format H (30_encoding.md R89). -/
def encodeH (op : BitVec 4) (imm16 : Half) : EventWord := 0#48 ++ imm16 ++ 0#4 ++ op

/-- Format C (30_encoding.md R90). -/
def encodeC (op : BitVec 4) (accel decel : Half) (min max : Velocity) (be : Bool) : EventWord :=
  max ++ min ++ decel ++ accel ++ 0#3 ++ BitVec.ofBool be ++ op

/-- The event word of an operation (30_encoding.md R87 to R91). -/
def encode : Instr → EventWord
  | .crcInit                   => encodeN 0x1#4
  | .crcByte b                 => encodeB 0x2#4 b
  | .crcRead                   => encodeN 0x3#4
  | .rxByte b                  => encodeB 0x4#4 b
  | .stPop                     => encodeN 0x5#4
  | .stLen                     => encodeN 0x6#4
  | .stOvf                     => encodeN 0x7#4
  | .rgCfg accel decel min max be => encodeC 0x8#4 accel decel min max be
  | .rgSett t                  => encodeH 0x9#4 t
  | .rgCur                     => encodeN 0xA#4
  | .rgTgt                     => encodeN 0xB#4
  | .tick                      => encodeN 0xC#4

/-- The instruction the decoder reads from the number `w` of `nbits` bits, every bit above `nbits` being 0. The event
word is one 72-bit value with no byte order (20_memory.md R64); a number that does not fit it is no event word. -/
def decodeTableWord (nbits w : Nat) : Option Instr :=
  if w % 2 ^ nbits < 2 ^ 72 then
    match decode (BitVec.ofNat 72 (w % 2 ^ nbits)) with
    | .operation i => some i
    | .illegal _   => none
  else none

end Sys2Proof
end

