-- ==== Sys2Proof/Config.lean ====
section
/-!
DEFINITION. The elaboration-time parameters (00_scope.md R8, R9), the named CRC parameter sets (40_crc.md R120),
and the values the spec leaves open (free values: constants without a body).
-/

namespace Sys2Proof

/-- The five CRC parameters (00_scope.md R8; 92_eei_decisions.md D2: OPEN, with defaults). -/
structure CrcParams where
  /-- `CRC_POLY`, the x^16 term implied. -/
  poly   : Half
  /-- `CRC_INIT`. -/
  init   : Half
  /-- `CRC_REFIN`. -/
  refIn  : Bool
  /-- `CRC_REFOUT`. -/
  refOut : Bool
  /-- `CRC_XOROUT`. -/
  xorOut : Half
deriving DecidableEq, Repr

/-- CRC-16/CCITT-FALSE, the default set of the spec (00_scope.md R9; 40_crc.md R120). -/
def CrcParams.ccittFalse : CrcParams := ⟨0x1021#16, 0xFFFF#16, false, false, 0x0000#16⟩

/-- CRC-16/XMODEM (40_crc.md R120). -/
def CrcParams.xmodem : CrcParams := ⟨0x1021#16, 0x0000#16, false, false, 0x0000#16⟩

/-- CRC-16/KERMIT (40_crc.md R120). -/
def CrcParams.kermit : CrcParams := ⟨0x1021#16, 0x0000#16, true, true, 0x0000#16⟩

/-- CRC-16/X-25 (40_crc.md R120). -/
def CrcParams.x25 : CrcParams := ⟨0x1021#16, 0xFFFF#16, true, true, 0xFFFF#16⟩

/-- CRC-16/MCRF4XX (40_crc.md R120). -/
def CrcParams.mcrf4xx : CrcParams := ⟨0x1021#16, 0xFFFF#16, true, true, 0x0000#16⟩

/-- The record of parameters a model takes as an argument of its step function (00_scope.md R8).
The parameters R8 calls fixed are not fields: `PAYLOAD_LEN` and `DATA_LEN` are below, the widths are
those of the word types, and the clamp of RG.SETT always comes first (`RAMP_CLAMP_FIRST`, conflict C2). -/
structure Params where
  crc         : CrcParams
  /-- `START_BYTE`. -/
  startByte   : Byte
  /-- `ACK_ENABLE` (OPEN, no default). -/
  ackEnable   : Bool
  /-- `ACK_PASS`; must differ from `ACK_FAIL`. -/
  ackPass     : Byte
  /-- `ACK_FAIL`. -/
  ackFail     : Byte
  /-- `STORE_DEPTH`, 1 to 15. -/
  storeDepth  : Nat
  /-- `TIMER_GRANULARITY_US`, written G (OPEN, no default), a positive integer. -/
  granularity : Nat
deriving DecidableEq, Repr

/-- `PAYLOAD_LEN` (00_scope.md R8, fixed): the payload bytes after the sentinel. -/
def Config.payloadLen : Nat := 8

/-- `DATA_LEN` (00_scope.md R8, fixed): the payload bytes the checksum covers. -/
def Config.dataLen : Nat := 6

/-- FREE VALUE (log 2). `ACK_ENABLE` of the machine that `State.reset` stands for: R8 gives no default. -/
opaque Config.ackEnable : Bool

/-- FREE VALUE (log 3). One less than `TIMER_GRANULARITY_US` of the machine that `State.reset` stands for: R8
gives no default and says only that it is positive. -/
opaque Config.granularityLessOne : Nat

/-- FREE VALUE (log 9). The 16 bits a TICK would store for a step `n` outside the range of `s16`. R190 computes on
mathematical integers, R40 derives that no reachable state gets there, and no rule names a stored value. -/
opaque Config.velocityOutOfRange : Int → Velocity

/-- The parameters of the machine `State.reset` stands for: every default R8 gives, and the free values for the
two parameters without one (log 2, 3, 4, 5). No meaning reads this record: it reads the record in the state. -/
def Config.params : Params where
  crc         := CrcParams.ccittFalse
  startByte   := 0x21#8
  ackEnable   := Config.ackEnable
  ackPass     := 0x47#8
  ackFail     := 0x42#8
  storeDepth  := 10
  granularity := Config.granularityLessOne + 1

end Sys2Proof
end

