-- ==== Sys2Proof/Machine/Operands.lean ====
section
/-!
DEFINITION. Reading operands: signed 16-bit values, the clamp, the rate conversion, little-endian bytes
(00_scope.md R11, R13; 43_ramp.md R182).
-/

namespace Sys2Proof.Machine

/-- `as_s16(u)`: the 16 bits read as two's complement (00_scope.md R11). -/
def asS16 (u : Velocity) : Int := u.toInt

/-- The least and greatest value of `s16` (00_scope.md R11). -/
def s16Min : Int := -32768
def s16Max : Int := 32767

/-- `as_u16(s)` of a value in the range of `s16` (00_scope.md R11); outside that range no rule gives the bits that would
be stored, and they are the free value `Config.velocityOutOfRange` (log 9). -/
def storeS16 (n : Int) : Velocity :=
  if s16Min ≤ n ∧ n ≤ s16Max then BitVec.ofInt 16 n else Config.velocityOutOfRange n

/-- `clamp(v, lo, hi)`, compared as signed integers; the result is one of the three arguments (00_scope.md R11;
43_ramp.md R198). -/
def clamp (v lo hi : Velocity) : Velocity :=
  if asS16 v < asS16 lo then lo else if asS16 v > asS16 hi then hi else v

/-- The literal of the rate conversion, microseconds per second (43_ramp.md R182). -/
def microsPerSecond : Nat := 1000000

/-- `rate_to_cmp(r) = (1 000 000 div r) div G`, both divisions dropping the remainder, in that order (43_ramp.md R182). -/
def rateToCmp (g : Nat) (rate : Half) : Compare :=
  BitVec.ofNat 20 (microsPerSecond / rate.toNat / g)

/-- The little-endian number of a list of bytes, the first byte least significant (00_scope.md R13; 20_memory.md R62). -/
def littleEndian : List Byte → Nat
  | [] => 0
  | b :: rest => b.toNat + 256 * littleEndian rest

/-- `speed` of a Command (30_encoding.md R82, R83). -/
def speedOf (cmd : Command) : Velocity := cmd.extractLsb' 0 16

/-- `acceleration` of a Command (30_encoding.md R82, R83). -/
def accelerationOf (cmd : Command) : Half := cmd.extractLsb' 16 16

/-- `deceleration` of a Command (30_encoding.md R82, R83). -/
def decelerationOf (cmd : Command) : Half := cmd.extractLsb' 32 16

/-- `checksum` of a Command (30_encoding.md R82, R83). -/
def checksumOf (cmd : Command) : Half := cmd.extractLsb' 48 16

/-- Payload byte i of a Command: `cmd[8i+7 : 8i]` (30_encoding.md R82). -/
def payloadByte (cmd : Command) (i : Nat) : Byte := cmd.extractLsb' (8 * i) 8

/-- The eight payload bytes of a Command in wire order (30_encoding.md R81, R82). -/
def payloadBytes (cmd : Command) : List Byte := (List.range Config.payloadLen).map (payloadByte cmd)

end Sys2Proof.Machine
end

