-- ==== Sys2Proof/Machine/State.lean ====
section
/-!
DEFINITION. The state of the core as plain data (10_state.md R20 to R49), its reset (70_reset_and_hazards.md R250),
and the reasons a step can stop.
-/

namespace Sys2Proof.Machine

/-- The decoder's state bit (10_state.md R24). -/
inductive FdState
  | idle | inFrame
deriving DecidableEq, Repr

/-- The encoding 0 / 1 of R24, visible nowhere. -/
def FdState.code : FdState → BitVec 1
  | .idle => 0#1
  | .inFrame => 1#1

/-- The ramp direction (10_state.md R33). -/
inductive Direction
  | acc | dec
deriving DecidableEq, Repr

/-- The encoding 0 / 1 of R33, visible nowhere. -/
def Direction.code : Direction → BitVec 1
  | .acc => 0#1
  | .dec => 1#1

/-- The frame buffer, the only byte-addressed memory (00_scope.md R13): address and byte pairs in the canonical form of
`Memory.wf`; an address not listed reads as 0x00, the reset content of every byte of `fd_buf` (10_state.md R26). -/
abbrev Memory := List Host.Cell

/-- Why the machine would stop with a fault. There is no constructor: no operation of this core faults, "the state stays
well formed and every later operation behaves as if the refused one had not been issued" (60_exceptions.md R222), and
no operation can name an address outside the frame buffer (log 12). Safe. -/
inductive Fault : Type
deriving DecidableEq, Repr

/-- Why the model would have no meaning for an operation. -/
inductive Refusal
  /-- Raised by an arm of `exec` whose operation has no meaning yet; no arm raises it. Safe. -/
  | notModelled (mnemonic : String)
deriving DecidableEq, Repr

/-- The whole state. Registers and widths: 10_state.md R49. -/
structure State where
  /-- The elaboration-time parameters, constant while the core runs (70_reset_and_hazards.md R252; log 1). -/
  params       : Params
  /-- `crc_acc` (R23). -/
  crcAcc       : Half
  /-- `fd_state` (R24). -/
  fdState      : FdState
  /-- `fd_count` (R25). -/
  fdCount      : BitVec 3
  /-- `fd_buf[0..7]` (R26). -/
  fdBuf        : Memory
  /-- `st_q` (R28), oldest entry first. -/
  stQ          : List Command
  /-- `st_ovf` (R30). -/
  stOvf        : Half
  /-- `rg_current` (R31). -/
  rgCurrent    : Velocity
  /-- `rg_target` (R32). -/
  rgTarget     : Velocity
  /-- `rg_dir` (R33). -/
  rgDir        : Direction
  /-- `rg_min` (R34). -/
  rgMin        : Velocity
  /-- `rg_max` (R34). -/
  rgMax        : Velocity
  /-- `rg_bounds_en` (R35). -/
  rgBoundsEn   : Bool
  /-- `rg_accel_cmp` (R36). -/
  rgAccelCmp   : Compare
  /-- `rg_decel_cmp` (R36). -/
  rgDecelCmp   : Compare
  /-- `rg_configured` (R37). -/
  rgConfigured : Bool
  /-- `tmr_run` (R38), also an output pin (R45). -/
  tmrRun       : Bool
  /-- `tmr_compare` (R39), also an output pin (R45). -/
  tmrCompare   : Compare
  /-- The arrivals not yet performed, oldest first (R21; log 6). -/
  inputs       : List Arrival
  /-- What the last step sent out, in order (R21, R43, R46; log 7). -/
  outputs      : List OutEvent
deriving DecidableEq, Repr

/-- Every register at its reset value (70_reset_and_hazards.md R250) in a core built with the parameters `p`; nothing has
arrived and nothing is emitted. -/
def State.resetWith (p : Params) : State where
  params       := p
  crcAcc       := p.crc.init
  fdState      := .idle
  fdCount      := 0#3
  fdBuf        := []
  stQ          := []
  stOvf        := 0#16
  rgCurrent    := 0#16
  rgTarget     := 0#16
  rgDir        := .acc
  rgMin        := 0#16
  rgMax        := 0#16
  rgBoundsEn   := false
  rgAccelCmp   := 0#20
  rgDecelCmp   := 0#20
  rgConfigured := false
  tmrRun       := false
  tmrCompare   := 0#20
  inputs       := []
  outputs      := []

/-- The machine right after reset, with the parameters of `Config.params`. -/
def State.reset : State := State.resetWith Config.params

end Sys2Proof.Machine
end

