-- ==== Sys2Proof/Machine/Ops.lean ====
section
/-!
DEFINITION. The named operations over memory, registers and ports that the meanings share.
-/

namespace Sys2Proof.Machine

/-- What a meaning answers. -/
abbrev Result := Host.Outcome State Fault Refusal

/-- One operation after another: the second sees every effect of the first (20_memory.md R66, R68). -/
def andThen (r : Result) (k : State → Result) : Result :=
  match r with
  | .next s    => k s
  | .fault e   => .fault e
  | .refused e => .refused e

/-! ## The frame buffer (00_scope.md R13; 20_memory.md R60) -/

/-- One byte of the frame buffer; an address that is not listed holds 0x00 (10_state.md R26). -/
def Memory.read (m : Memory) (a : Nat) : Byte :=
  match m.find? (fun c => c.1 == a) with
  | some c => c.2
  | none   => 0#8

/-- A cell put at its place among cells with other addresses, addresses rising. -/
def Memory.insert (c : Host.Cell) : Memory → Memory
  | [] => [c]
  | d :: rest => if c.1 < d.1 then c :: d :: rest else d :: Memory.insert c rest

/-- `MemWrite(a, 1, v)` (00_scope.md R13). Addresses are the 3-bit values of `fd_count`, so none outside 0 to 7 exists.
Writing 0x00, what an unlisted address reads as, removes the entry. -/
def Memory.write (m : Memory) (a : BitVec 3) (v : Byte) : Memory :=
  if v = 0#8 then m.filter (fun c => c.1 != a.toNat)
  else Memory.insert (a.toNat, v) (m.filter (fun c => c.1 != a.toNat))

/-- The bytes at `a`, ..., `a + n - 1`. -/
def Memory.bytes (m : Memory) (a n : Nat) : List Byte := (List.range n).map (fun i => m.read (a + i))

/-- `MemRead(a, n)`, a little-endian number (00_scope.md R13). -/
def Memory.readLE (m : Memory) (a n : Nat) : Nat := littleEndian (m.bytes a n)

/-- The canonical form: addresses strictly rising and inside the buffer, no entry equal to what an unlisted address
reads as. -/
abbrev Memory.wf (m : Memory) : Prop :=
  m.Pairwise (fun c d => c.1 < d.1) ∧ ∀ c ∈ m, c.1 < 8 ∧ c.2 ≠ 0#8

/-! ## Registers -/

/-- `crc_acc <- c`. -/
def State.setCrcAcc (s : State) (c : Half) : State := { s with crcAcc := c }

/-- `fd_state <- st; fd_count <- n`. -/
def State.setDecoder (s : State) (st : FdState) (n : BitVec 3) : State := { s with fdState := st, fdCount := n }

/-- `fd_buf[a] <- v`. -/
def State.memWrite (s : State) (a : BitVec 3) (v : Byte) : State := { s with fdBuf := s.fdBuf.write a v }

/-- `st_q <- q`. -/
def State.setStQ (s : State) (q : List Command) : State := { s with stQ := q }

/-- `st_ovf <- n`. -/
def State.setStOvf (s : State) (n : Half) : State := { s with stOvf := n }

/-- `rg_current <- v`. -/
def State.setCurrent (s : State) (v : Velocity) : State := { s with rgCurrent := v }

/-- `rg_target <- v`. -/
def State.setTarget (s : State) (v : Velocity) : State := { s with rgTarget := v }

/-- `rg_dir <- d`. -/
def State.setDir (s : State) (d : Direction) : State := { s with rgDir := d }

/-- The six registers RG.CFG writes together (43_ramp.md R181). -/
def State.setConfig (s : State) (ac dc : Compare) (min max : Velocity) (be : Bool) : State :=
  { s with rgAccelCmp := ac, rgDecelCmp := dc, rgMin := min, rgMax := max, rgBoundsEn := be, rgConfigured := true }

/-! ## Ports -/

/-- An output event of the operation in progress, after those before it (60_exceptions.md R231 for their order). -/
def State.emit (s : State) (e : OutEvent) : State := { s with outputs := s.outputs ++ [e] }

/-- `respond STATUS(data)` to the port that issued the operation (00_scope.md R14; 30_encoding.md R96). -/
def State.respond (s : State) (p : Port) (st : Status) (data : BitVec 64) : State := s.emit (.response p st data)

/-- `refuse STATUS` (00_scope.md R14; 60_exceptions.md R224): what this core has for taking an exception. It changes no
register, drives no output and responds `STATUS(0)`; nothing is saved, no mode or mask changes and control goes nowhere,
so that there is no return operation and nothing to restore. -/
def State.refuse (s : State) (p : Port) (st : Status) : State := s.respond p st 0#64

/-- `emit ack(b)` (00_scope.md R14; 10_state.md R46). -/
def State.emitAck (s : State) (b : Byte) : State := s.emit (.ack b)

/-- `emit vel(v)`, the actuator callback (00_scope.md R14; 10_state.md R46; 43_ramp.md R194). -/
def State.emitVel (s : State) (v : Velocity) : State := s.emit (.vel v)

/-- `tmr set_period(c)`: an assignment to `tmr_compare` (60_exceptions.md R231). -/
def State.setPeriod (s : State) (c : Compare) : State := { s with tmrCompare := c }.emit (.setPeriod c)

/-- `tmr start`: an assignment of 1 to `tmr_run`, issued also when it is already 1 (60_exceptions.md R231). -/
def State.timerStart (s : State) : State := { s with tmrRun := true }.emit .timerStart

/-- `tmr stop`: an assignment of 0 to `tmr_run`, issued also when it is already 0 (60_exceptions.md R231). -/
def State.timerStop (s : State) : State := { s with tmrRun := false }.emit .timerStop

/-- The arrivals that are left. -/
def State.setInputs (s : State) (i : List Arrival) : State := { s with inputs := i }

/-- The outputs of the step before are gone: nothing but the registers persists (10_state.md R20; 70_reset_and_hazards.md
R260). -/
def State.clearOutputs (s : State) : State := { s with outputs := [] }

/-- `rst = 1` at a clock edge (10_state.md R42; 70_reset_and_hazards.md R250, R252): every register at its reset value,
no output; the parameters and what is yet to arrive stay. -/
def State.resetRegisters (s : State) : State := (State.resetWith s.params).setInputs s.inputs

end Sys2Proof.Machine
end

