-- ==== Sys2Proof/Machine/Crc.lean ====
section
/-!
DEFINITION. The CRC block (40_crc.md): the function `crc16`, and CRC.INIT, CRC.BYTE, CRC.READ.
-/

namespace Sys2Proof.Machine

/-- One shift of the register: left by one, with the polynomial xored on when bit 15 was 1 (40_crc.md R110). -/
def crcShift (poly x : Half) : Half := if x.msb then (x <<< 1) ^^^ poly else x <<< 1

/-- `n` shifts in a row. -/
def crcShifts (poly : Half) : Nat → Half → Half
  | 0, x => x
  | n + 1, x => crcShifts poly n (crcShift poly x)

/-- `crc_step(c, b)`: one byte into the accumulator (40_crc.md R110). -/
def crcStep (p : CrcParams) (c : Half) (b : Byte) : Half :=
  let d : Byte := if p.refIn then b.reverse else b
  crcShifts p.poly 8 (c ^^^ (d.setWidth 16 <<< 8))

/-- `crc_final(c)` (40_crc.md R111). -/
def crcFinal (p : CrcParams) (c : Half) : Half := (if p.refOut then c.reverse else c) ^^^ p.xorOut

/-- `crc_fold(c, bytes)`, the first byte first (40_crc.md R112). -/
def crcFold (p : CrcParams) : Half → List Byte → Half
  | c, [] => c
  | c, b :: rest => crcFold p (crcStep p c b) rest

/-- `crc16(bytes)` (40_crc.md R113). -/
def crc16 (p : CrcParams) (bytes : List Byte) : Half := crcFinal p (crcFold p p.init bytes)

/-- CRC.INIT (40_crc.md R114). -/
def execCrcInit (s : State) : Result :=
  .next ((s.setCrcAcc s.params.crc.init).respond .host .ok 0#64)

/-- CRC.BYTE (40_crc.md R115). -/
def execCrcByte (byte : Byte) (s : State) : Result :=
  .next ((s.setCrcAcc (crcStep s.params.crc s.crcAcc byte)).respond .host .ok 0#64)

/-- CRC.READ (40_crc.md R116). -/
def execCrcRead (s : State) : Result :=
  .next (s.respond .host .ok ((crcFinal s.params.crc s.crcAcc).setWidth 64))

end Sys2Proof.Machine
end

