-- ==== Sys2Proof/Machine/Flags.lean ====
section
/-!
DEFINITION. The status conditions (10_state.md R41): the core has no condition codes; its conditions are the stored
status bits of State, the two derived store conditions, and the stop conditions of a tick (43_ramp.md R190, R192, R193).
-/

namespace Sys2Proof.Machine

/-- `st_len`, always the number of entries of `st_q` (10_state.md R29). -/
def State.stLen (s : State) : BitVec 4 := BitVec.ofNat 4 s.stQ.length

/-- The derived condition *empty*: `st_len = 0` (10_state.md R41). -/
def State.stEmpty (s : State) : Bool := s.stQ.isEmpty

/-- The derived condition *full*: no room for another entry (10_state.md R41; 42_command_store.md R161). -/
def State.stFull (s : State) : Bool := decide (s.params.storeDepth ≤ s.stQ.length)

/-- RG.CFG's three reasons to refuse (43_ramp.md R181, R184): a zero rate, or `min > max`, compared signed. -/
def configRejected (accel decel : Half) (min max : Velocity) : Bool :=
  accel == 0#16 || decel == 0#16 || decide (asS16 min > asS16 max)

/-- The step of a tick before any clamp, a mathematical integer (43_ramp.md R190). -/
def State.tickStep (s : State) : Int :=
  match s.rgDir with
  | .acc => asS16 s.rgCurrent + 1
  | .dec => asS16 s.rgCurrent - 1

/-- The bounds of a tick (43_ramp.md R190, R192): the clamped step, and whether a bound was reached or exceeded. Both
bounds are tested whatever the direction, the upper one first. -/
def State.tickBounds (s : State) (n : Int) : Int × Bool :=
  if s.rgBoundsEn then
    if n ≥ asS16 s.rgMax then (asS16 s.rgMax, true)
    else if n ≤ asS16 s.rgMin then (asS16 s.rgMin, true)
    else (n, false)
  else (n, false)

/-- The target test of a tick, directional and made after the bounds clamp (43_ramp.md R190, R193). -/
def State.tickAtTarget (s : State) (n : Int) : Bool :=
  match s.rgDir with
  | .acc => decide (n ≥ asS16 s.rgTarget)
  | .dec => decide (n ≤ asS16 s.rgTarget)

/-- No frame is open and no ramp is in flight (70_reset_and_hazards.md R262). -/
def State.quiescent (s : State) : Bool := s.fdState == .idle && !s.tmrRun

end Sys2Proof.Machine
end

