-- ==== Sys2Proof/Machine/Store.lean ====
section
/-!
DEFINITION. The Command Store (42_command_store.md): the internal action `st_push`, and ST.POP, ST.LEN, ST.OVF.
-/

namespace Sys2Proof.Machine

/-- A saturating increment of `st_ovf` (10_state.md R30; 42_command_store.md R161). -/
def saturatingIncr (n : Half) : Half := if n = 0xFFFF#16 then 0xFFFF#16 else n + 1#16

/-- `st_push(cmd)`: append at the tail, or drop the new Command and count it (42_command_store.md R161). -/
def State.stPush (s : State) (cmd : Command) : State :=
  if s.stFull then s.setStOvf (saturatingIncr s.stOvf) else s.setStQ (s.stQ ++ [cmd])

/-- ST.POP: the oldest entry, or EMPTY, told apart by the status alone (42_command_store.md R162). -/
def execStPop (s : State) : Result :=
  match s.stQ with
  | []           => .next (s.respond .host .empty 0#64)
  | head :: rest => .next ((s.setStQ rest).respond .host .ok head)

/-- ST.LEN (42_command_store.md R163). -/
def execStLen (s : State) : Result :=
  .next (s.respond .host .ok (s.stLen.setWidth 64))

/-- ST.OVF (42_command_store.md R164). -/
def execStOvf (s : State) : Result :=
  .next (s.respond .host .ok (s.stOvf.setWidth 64))

end Sys2Proof.Machine
end

