-- ==== Sys2Proof/Machine/Frame.lean ====
section
/-!
DEFINITION. The frame decoder (41_frame_decoder.md): RX.BYTE.
-/

namespace Sys2Proof.Machine

/-- The checksum computed over the data bytes of the buffer, payload bytes 0 to 5 (41_frame_decoder.md R130, R134). It is
the function `crc16`; `crc_acc` is not involved (R135). -/
def State.frameCalc (s : State) : Half := crc16 s.params.crc (s.fdBuf.bytes 0 Config.dataLen)

/-- The checksum received, `MemRead(6, 2)` (41_frame_decoder.md R130). -/
def State.frameRecv (s : State) : Half := BitVec.ofNat 16 (s.fdBuf.readLE Config.dataLen 2)

/-- The Command in the buffer, `MemRead(0, 8)` (41_frame_decoder.md R130; 30_encoding.md R82). -/
def State.frameCommand (s : State) : Command := BitVec.ofNat 64 (s.fdBuf.readLE 0 Config.payloadLen)

/-- One acknowledgment byte if acknowledgment is enabled, none otherwise (41_frame_decoder.md R136). -/
def State.acknowledge (s : State) (b : Byte) : State := if s.params.ackEnable then s.emitAck b else s

/-- The close step, on a buffer that holds all eight bytes (41_frame_decoder.md R130 case 4, R134). The acknowledgment
reports the checksum only: a Command dropped by a full store is still answered `ACK_PASS` (R136). -/
def State.closeFrame (s : State) : State :=
  (if s.frameCalc = s.frameRecv then (s.stPush s.frameCommand).acknowledge s.params.ackPass
   else s.acknowledge s.params.ackFail).setDecoder .idle 0#3

/-- One byte of the stream in the four cases of 41_frame_decoder.md R130. -/
def State.receive (s : State) (byte : Byte) : State :=
  match s.fdState with
  | .idle => if byte = s.params.startByte then s.setDecoder .inFrame 0#3 else s
  | .inFrame =>
    if s.fdCount < 7#3 then (s.memWrite s.fdCount byte).setDecoder .inFrame (s.fdCount + 1#3)
    else (s.memWrite s.fdCount byte).closeFrame

/-- RX.BYTE, which always responds OK (41_frame_decoder.md R130). -/
def execRxByte (byte : Byte) (s : State) : Result :=
  .next ((s.receive byte).respond .rx .ok 0#64)

end Sys2Proof.Machine
end

