-- ==== Sys2Proof/Machine/Ramp.lean ====
section
/-!
DEFINITION. The ramp block (43_ramp.md): RG.CFG, RG.SETT, TICK, RG.CUR, RG.TGT.
-/

namespace Sys2Proof.Machine

/-- RG.CFG (43_ramp.md R181): refused at the configuration boundary (R184), else six registers together. It touches
neither the velocities nor the timer (R183). -/
def execRgCfg (accel decel : Half) (min max : Velocity) (be : Bool) (s : State) : Result :=
  if configRejected accel decel min max then .next (s.refuse .host .errCfg)
  else
    .next ((s.setConfig (rateToCmp s.params.granularity accel) (rateToCmp s.params.granularity decel) min max be).respond
      .host .ok 0#64)

/-- The clamp of RG.SETT, made before the comparison (43_ramp.md R185, R186; conflict C2). -/
def State.boundVelocity (s : State) (v : Velocity) : Velocity :=
  if s.rgBoundsEn then clamp v s.rgMin s.rgMax else v

/-- The start of a ramp: direction, period, start (43_ramp.md R185, R188). -/
def State.startRamp (s : State) (d : Direction) (c : Compare) : State := ((s.setDir d).setPeriod c).timerStart

/-- RG.SETT after the check that the ramp is configured (43_ramp.md R185, R187). -/
def State.setTargetVelocity (s : State) (t : Velocity) : State :=
  let tt := s.boundVelocity t
  let cc := s.boundVelocity s.rgCurrent
  let s' := (s.setTarget tt).setCurrent cc
  if asS16 tt > asS16 cc then s'.startRamp .acc s.rgAccelCmp
  else if asS16 tt < asS16 cc then s'.startRamp .dec s.rgDecelCmp
  else s'.timerStop

/-- RG.SETT (43_ramp.md R185). -/
def execRgSett (t : Velocity) (s : State) : Result :=
  if s.rgConfigured then .next ((s.setTargetVelocity t).respond .host .ok 0#64)
  else .next (s.refuse .host .errNocfg)

/-- RG.CUR (43_ramp.md R195). -/
def execRgCur (s : State) : Result := .next (s.respond .host .ok (s.rgCurrent.setWidth 64))

/-- RG.TGT (43_ramp.md R196). -/
def execRgTgt (s : State) : Result := .next (s.respond .host .ok (s.rgTarget.setWidth 64))

/-- An effective tick (43_ramp.md R190): step, bounds, target, one `tmr stop` at most, one velocity. -/
def State.advance (s : State) : State :=
  let b := s.tickBounds s.tickStep
  let v := storeS16 b.1
  let s' := s.setCurrent v
  (if b.2 || s.tickAtTarget b.1 then s'.timerStop else s').emitVel v

/-- TICK (43_ramp.md R190); a tick that finds `tmr_run = 0` is ignored (R191). -/
def execTick (s : State) : Result :=
  if s.tmrRun then .next (s.advance.respond .timer .ok 0#64)
  else .next (s.respond .timer .ignored 0#64)

end Sys2Proof.Machine
end

