-- ==== Sys2Proof/Machine/Dispatch.lean ====
section
/-!
DEFINITION. The dispatch: one arm per operation, each a direct call of its meaning.
-/

namespace Sys2Proof.Machine

def exec (i : Instr) (s : State) : Host.Outcome State Fault Refusal :=
  match i with
  | .crcInit => Sys2Proof.Machine.execCrcInit s
  | .crcByte byte => Sys2Proof.Machine.execCrcByte byte s
  | .crcRead => Sys2Proof.Machine.execCrcRead s
  | .rxByte byte => Sys2Proof.Machine.execRxByte byte s
  | .stPop => Sys2Proof.Machine.execStPop s
  | .stLen => Sys2Proof.Machine.execStLen s
  | .stOvf => Sys2Proof.Machine.execStOvf s
  | .rgCfg accel decel min max be => Sys2Proof.Machine.execRgCfg accel decel min max be s
  | .rgSett t => Sys2Proof.Machine.execRgSett t s
  | .rgCur => Sys2Proof.Machine.execRgCur s
  | .rgTgt => Sys2Proof.Machine.execRgTgt s
  | .tick => Sys2Proof.Machine.execTick s

end Sys2Proof.Machine
end

