-- ==== Sys2Proof/Machine/Ports.lean ====
section
/-!
DEFINITION. What arrives at the ports and what leaves them: an event word at a port (30_encoding.md R92 to R94), a clock
edge (10_state.md R42 to R45; 20_memory.md R67), the output pins (10_state.md R43, R45, R46).
-/

namespace Sys2Proof.Machine

/-- An event word arriving at a port: decoded, and performed or refused with ERR_ILLEGAL (30_encoding.md R92, R93, R94;
the decoding error comes before any operand is looked at, 60_exceptions.md R223). -/
def performOp (p : Port) (w : EventWord) (s : State) : Result :=
  match decodeAt p w with
  | .operation i => exec i s
  | .illegal _   => .next (s.refuse p .errIllegal)

/-- The operation the timer pin offers in a clock cycle (10_state.md R45). -/
def performTickPin (pins : InPins) (s : State) : Result :=
  if pins.tick then exec .tick s else .next s

/-- The operation the host pins offer in a clock cycle (10_state.md R43). -/
def performHostPins (pins : InPins) (s : State) : Result :=
  if pins.hValid then performOp .host pins.hWord s else .next s

/-- The operation the rx pins offer in a clock cycle (10_state.md R44). -/
def performRxPins (pins : InPins) (s : State) : Result :=
  if pins.rxValid then exec (.rxByte pins.rxData) s else .next s

/-- A rising clock edge: reset, whatever the other inputs are (10_state.md R42), or the operations offered, in the fixed
order timer, host, rx (20_memory.md R67). -/
def performEdge (pins : InPins) (s : State) : Result :=
  if pins.rst then .next s.resetRegisters
  else andThen (andThen (performTickPin pins s) (performHostPins pins)) (performRxPins pins)

/-- One arrival. -/
def perform (a : Arrival) (s : State) : Result :=
  match a with
  | .op p w => performOp p w s
  | .edge pins => performEdge pins s

/-- The output pins after a step (10_state.md R43, R45, R46). A port with a valid pin is an Option: its data pins carry
nothing the spec states while the valid pin is 0 (log 13). -/
structure OutPins where
  /-- `h_rvalid` with `h_status[3:0]` and `h_data[63:0]`. -/
  hResponse  : Option (BitVec 4 × BitVec 64)
  /-- `ack_valid` with `ack_data[7:0]`. -/
  ack        : Option Byte
  /-- `vel_valid` with `vel_data[15:0]`. -/
  vel        : Option Velocity
  tmrRun     : Bool
  tmrCompare : Compare
deriving DecidableEq, Repr

/-- The host response among the events of a step; the rx and timer ports have no response pins (30_encoding.md R96). -/
def hostResponseOf : OutEvent → Option (BitVec 4 × BitVec 64)
  | .response .host st d => some (st.code, d)
  | _ => none

/-- The acknowledgment byte of an event. -/
def ackByteOf : OutEvent → Option Byte
  | .ack b => some b
  | _ => none

/-- The velocity of an event. -/
def velocityOf : OutEvent → Option Velocity
  | .vel v => some v
  | _ => none

/-- The status of a response, of any port. -/
def statusOf : OutEvent → Option Status
  | .response _ st _ => some st
  | _ => none

/-- The output pins the last step drove. -/
def State.outPins (s : State) : OutPins where
  hResponse  := s.outputs.findSome? hostResponseOf
  ack        := s.outputs.findSome? ackByteOf
  vel        := s.outputs.findSome? velocityOf
  tmrRun     := s.tmrRun
  tmrCompare := s.tmrCompare

/-- The port at which an event word is accepted (30_encoding.md R91); a word no row matches is offered at the host. -/
def portOf (w : EventWord) : Port :=
  match decode w with
  | .operation i => i.port
  | .illegal _   => .host

end Sys2Proof.Machine
end

