-- ==== Sys2Proof/Machine/Step.lean ====
section
/-!
DEFINITION. One step: the oldest arrival is taken and performed. The core fetches nothing (00_scope.md R15): what plays the
part of a fetch is taking the next arrival from `inputs` (log 6, log 10).
-/

namespace Sys2Proof.Machine

/-- One step. With nothing to perform the core is idle and stays so (70_reset_and_hazards.md R251); it never halts (R262). -/
def step (s : State) : Host.Outcome State Fault Refusal :=
  match s.inputs with
  | [] => .next s.clearOutputs
  | a :: rest => perform a (s.setInputs rest).clearOutputs

/-- The state in which the next step performs the event word `w`, offered at the port its operation belongs to. -/
def State.withFetchWord (s : State) (nbits w : Nat) : State :=
  s.setInputs (.op (portOf (BitVec.ofNat 72 (w % 2 ^ nbits))) (BitVec.ofNat 72 (w % 2 ^ nbits)) :: s.inputs)

end Sys2Proof.Machine
end

