-- ==== Sys2Proof/Machine/Trace.lean ====
section
/-!
DEFINITION. Sequences of operations: performing them one after another, the frame a sender builds (30_encoding.md R84),
the pseudo-operations (R99) and the textual form of a trace (R98).
-/

namespace Sys2Proof.Machine

/-- The operations performed one after another, their outputs collected in one list (20_memory.md R66 to R68). -/
def execAll : List Instr → State → Result
  | [], s => .next s
  | i :: rest, s => andThen (exec i s) (execAll rest)

/-- The arrivals performed one after another, their outputs collected in one list. -/
def performAll : List Arrival → State → Result
  | [], s => .next s
  | a :: rest, s => andThen (perform a s) (performAll rest)

/-- An operation as an arrival at its own port (00_scope.md R15). -/
def arrivalOf (i : Instr) : Arrival := .op i.port (encode i)

/-- The six data bytes of a Command in wire order (30_encoding.md R81). -/
def dataBytes (speed : Velocity) (accel decel : Half) : List Byte :=
  [speed.extractLsb' 0 8, speed.extractLsb' 8 8, accel.extractLsb' 0 8, accel.extractLsb' 8 8,
   decel.extractLsb' 0 8, decel.extractLsb' 8 8]

/-- The nine bytes to send for a Command: sentinel, data bytes, checksum low byte first (30_encoding.md R84). -/
def frameBytes (p : Params) (speed : Velocity) (accel decel : Half) : List Byte :=
  let k := crc16 p.crc (dataBytes speed accel decel)
  p.startByte :: (dataBytes speed accel decel ++ [k.extractLsb' 0 8, k.extractLsb' 8 8])

/-- The Command with the given fields and the checksum that makes it valid (30_encoding.md R82, R84). -/
def commandOf (p : Params) (speed : Velocity) (accel decel : Half) : Command :=
  crc16 p.crc (dataBytes speed accel decel) ++ decel ++ accel ++ speed

/-- A Command is valid when its checksum matches that of its data bytes (30_encoding.md R84). -/
def commandValid (p : CrcParams) (cmd : Command) : Bool :=
  checksumOf cmd == crc16 p ((payloadBytes cmd).take Config.dataLen)

/-- CRC.COMPUTE (30_encoding.md R99; 40_crc.md R118). -/
def crcCompute (bytes : List Byte) : List Instr := .crcInit :: (bytes.map .crcByte ++ [.crcRead])

/-- RX.BYTES (30_encoding.md R99). -/
def rxBytes (bytes : List Byte) : List Instr := bytes.map .rxByte

/-- RX.FRAME (30_encoding.md R99). -/
def rxFrame (p : Params) (speed : Velocity) (accel decel : Half) : List Instr := rxBytes (frameBytes p speed accel decel)

/-- TICK * n (30_encoding.md R99). -/
def ticks (n : Nat) : List Instr := List.replicate n .tick

/-! ## Text (30_encoding.md R98) -/

/-- The `n` lowest hexadecimal digits of a number. -/
def hexDigits (n v : Nat) : String :=
  String.ofList ((List.range n).reverse.map (fun k => (Nat.digitChar (v / 16 ^ k % 16)).toUpper))

/-- A signed decimal number. -/
def decimal (v : Int) : String := toString v

/-- The port as a trace line names it. -/
def portText : Port → String
  | .host => "host"
  | .rx => "rx"
  | .timer => "tmr"

/-- Mnemonic and operands as a trace line writes them. -/
def instrText : Instr → String
  | .crcInit => "CRC.INIT"
  | .crcByte b => "CRC.BYTE 0x" ++ hexDigits 2 b.toNat
  | .crcRead => "CRC.READ"
  | .rxByte b => "RX.BYTE 0x" ++ hexDigits 2 b.toNat
  | .stPop => "ST.POP"
  | .stLen => "ST.LEN"
  | .stOvf => "ST.OVF"
  | .rgCfg accel decel min max be =>
    "RG.CFG accel=" ++ toString accel.toNat ++ " decel=" ++ toString decel.toNat ++ " min=" ++ decimal (asS16 min)
      ++ " max=" ++ decimal (asS16 max) ++ " be=" ++ (if be then "1" else "0")
  | .rgSett t => "RG.SETT " ++ decimal (asS16 t)
  | .rgCur => "RG.CUR"
  | .rgTgt => "RG.TGT"
  | .tick => "TICK"

/-- A trace line: port, mnemonic, operands. -/
def traceLine (i : Instr) : String := portText i.port ++ ": " ++ instrText i

/-- A status by its name (60_exceptions.md R220). -/
def statusText : Status → String
  | .ok => "OK"
  | .empty => "EMPTY"
  | .ignored => "IGNORED"
  | .errCfg => "ERR_CFG"
  | .errNocfg => "ERR_NOCFG"
  | .errIllegal => "ERR_ILLEGAL"

/-- The operations whose response carries a value (30_encoding.md R97). -/
def returnsData : Instr → Bool
  | .crcRead | .stPop | .stLen | .stOvf | .rgCur | .rgTgt => true
  | .crcInit | .crcByte _ | .rxByte _ | .rgCfg _ _ _ _ _ | .rgSett _ | .tick => false

/-- A number in hexadecimal without leading zeros. -/
def hexNumber (v : Nat) : String := String.ofList ((Nat.toDigits 16 v).map Char.toUpper)

/-- One expected result of the operation `i`; the data of a response is written for the operations that return a value. -/
def eventText (i : Instr) : OutEvent → String
  | .response _ st d => statusText st ++ (if returnsData i then " data=0x" ++ hexNumber d.toNat else "")
  | .ack b => "ack 0x" ++ hexDigits 2 b.toNat
  | .vel v => "vel " ++ decimal (asS16 v)
  | .setPeriod c => "tmr set_period(" ++ toString c.toNat ++ ")"
  | .timerStart => "tmr start"
  | .timerStop => "tmr stop"

end Sys2Proof.Machine
end

