-- ==== Sys2Proof/WellFormed.lean ====
section
/-!
DEFINITION. What is well formed: a parameter record (the legal values of 00_scope.md R8), and an operation at a port
(30_encoding.md R91, R94). Operands need no check: every value of every operand field is decodable (R92), and a value
an operation does not accept is refused by its own rule, not as ill-formed.
-/

namespace Sys2Proof

/-- The legal values of the parameters (00_scope.md R8). -/
abbrev Params.wf (p : Params) : Prop :=
  p.ackPass ≠ p.ackFail ∧ 1 ≤ p.storeDepth ∧ p.storeDepth ≤ 15 ∧ 1 ≤ p.granularity

/-- An operation is well formed at the one port it may arrive on (30_encoding.md R91, R94). -/
abbrev Instr.wfAt (i : Instr) (p : Port) : Prop := i.port = p

end Sys2Proof
end

