-- ==== Sys2Proof/Safety.lean ====
section
/-!
DEFINITION. What a good state is: the invariants the spec states or derives. No operation faults (60_exceptions.md R222),
so a safe run is one that stays in good states.
-/

namespace Sys2Proof.Machine

/-- The invariants (a) to (d) of the ramp registers (10_state.md R40). -/
abbrev RampInv (s : State) : Prop :=
  (s.rgConfigured = false → s.tmrRun = false) ∧
  (s.tmrRun = true → s.rgDir = .acc → s.rgCurrent.toInt < s.rgTarget.toInt) ∧
  (s.tmrRun = true → s.rgDir = .dec → s.rgCurrent.toInt > s.rgTarget.toInt) ∧
  (s.rgConfigured = true → s.rgMin.toInt ≤ s.rgMax.toInt)

/-- The byte counter is 0 while no frame is open (10_state.md R25), and the frame buffer keeps its canonical form. -/
abbrev DecoderInv (s : State) : Prop :=
  (s.fdState = .idle → s.fdCount = 0#3) ∧ s.fdBuf.wf

/-- The store holds at most `STORE_DEPTH` entries (10_state.md R28), all of them valid Commands (42_command_store.md R160). -/
abbrev StoreInv (s : State) : Prop :=
  s.stQ.length ≤ s.params.storeDepth ∧ ∀ cmd ∈ s.stQ, commandValid s.params.crc cmd = true

/-- A good state. -/
abbrev GoodState (s : State) : Prop := s.params.wf ∧ DecoderInv s ∧ StoreInv s ∧ RampInv s

/-! ## Terms the statements use -/

/-- `clamp` on integers (00_scope.md R11). -/
def clampInt (v lo hi : Int) : Int := if v < lo then lo else if v > hi then hi else v

/-- `w` is the word of the operation `i`, accepted at the port `p` and at no other (30_encoding.md R91, R94). -/
def IsWordOf (p : Port) (w : EventWord) (i : Instr) : Prop :=
  decodeAt p w = .operation i ∧ ∀ q, q ≠ p → decodeAt q w = .illegal .wrongPort

/-- The block an operation belongs to (30_encoding.md R91, the file of its rule). -/
inductive Block
  | crc | decoder | store | ramp
deriving DecidableEq, Repr

/-- The block of an operation. -/
def blockOf : Instr → Block
  | .crcInit | .crcByte _ | .crcRead => .crc
  | .rxByte _ => .decoder
  | .stPop | .stLen | .stOvf => .store
  | .rgCfg _ _ _ _ _ | .rgSett _ | .rgCur | .rgTgt | .tick => .ramp

/-- The byte a CRC.BYTE gives to the accumulator (40_crc.md R117). -/
def crcOperandOf : Instr → Option Byte
  | .crcByte b => some b
  | .crcInit | .crcRead | .rxByte _ | .stPop | .stLen | .stOvf | .rgCfg _ _ _ _ _ | .rgSett _ | .rgCur | .rgTgt | .tick => none

/-- Two states alike in everything but bytes of the frame buffer not yet written in the current frame (10_state.md R27). -/
def SameButStale (s s' : State) : Prop :=
  { s with fdBuf := [] } = { s' with fdBuf := [] } ∧
  (s.fdState = .inFrame → ∀ a, a < s.fdCount.toNat → s.fdBuf.read a = s'.fdBuf.read a)

/-- What the two ends of the store do: a push by the decoder, a pop by the host (42_command_store.md R165). -/
inductive StoreAct
  | push (cmd : Command)
  | pop
deriving DecidableEq, Repr

/-- Pushes and pops interleaved. -/
def storeRun : List StoreAct → State → Result
  | [], s => .next s
  | .push cmd :: rest, s => storeRun rest (s.stPush cmd)
  | .pop :: rest, s => andThen (exec .stPop s) (storeRun rest)

/-- The Commands pushed, in order. -/
def pushedOf : StoreAct → Option Command
  | .push cmd => some cmd
  | .pop => none

/-- The Command a host response with status OK carries. -/
def okDataOf : OutEvent → Option Command
  | .response .host .ok d => some d
  | _ => none

end Sys2Proof.Machine
end

