-- ==== Sys2Proof/Certificates/Slice0/Obligations.lean ====
section
/-!
DEFINITION. The statements for the provers. They come from the numbered rules of the spec; each docstring names its rule.
All of them hold for every parameter record, since a state carries its own (00_scope.md R8).
-/

open Sys2Proof Sys2Proof.Machine

/-! ## Encodings -/

/-- Words written out from 30_encoding.md R87 to R91 (and listed in 95_test_vectors.md V-EN-1, V-EN-2), one or more per
format and per block, decode to what they stand for. -/
def Obligations.WrittenOutWordsDecode : Prop :=
  decodeAt .host 0x000000000000000001#72 = .operation .crcInit ∧
  decodeAt .host 0x00000000000000FF02#72 = .operation (.crcByte 0xFF#8) ∧
  decodeAt .rx 0x000000000000002104#72 = .operation (.rxByte 0x21#8) ∧
  decodeAt .host 0x000000000000000005#72 = .operation .stPop ∧
  decodeAt .host 0x03E8000001F403E818#72 = .operation (.rgCfg 1000#16 500#16 0#16 1000#16 true) ∧
  decodeAt .host 0x000000000000FFFF09#72 = .operation (.rgSett (BitVec.ofInt 16 (-1))) ∧
  decodeAt .timer 0x00000000000000000C#72 = .operation .tick ∧
  decodeAt .host 0x000000000000000000#72 = .illegal .unassignedOpcode ∧
  decodeAt .host 0x100000000000000001#72 = .illegal .reservedBit ∧
  decodeAt .host 0x00000000000000000C#72 = .illegal .wrongPort

/-- 30_encoding.md R86 to R92: the word of an operation, with every operand at every value, decodes to that operation at
its port, and at no other port. -/
def Obligations.EncodedOperationsDecodeBackAtTheirPort : Prop :=
  ∀ (i : Instr) (p : Port),
    (i.wfAt p → decodeAt p (encode i) = .operation i) ∧
    (¬ i.wfAt p → decodeAt p (encode i) = .illegal .wrongPort)

/-- 30_encoding.md R87 to R91: every operation has one word, and here it is as a number. A word decodes to an operation
exactly when it is that number, so every operand bit is read where its format puts it and every reserved bit is 0. -/
def Obligations.WordsAreTheNumbersOfTheirFormats : Prop :=
  ∀ w : EventWord,
    (decode w = .operation .crcInit ↔ w.toNat = 0x1) ∧
    (∀ b : Byte, decode w = .operation (.crcByte b) ↔ w.toNat = 0x2 + 2 ^ 8 * b.toNat) ∧
    (decode w = .operation .crcRead ↔ w.toNat = 0x3) ∧
    (∀ b : Byte, decode w = .operation (.rxByte b) ↔ w.toNat = 0x4 + 2 ^ 8 * b.toNat) ∧
    (decode w = .operation .stPop ↔ w.toNat = 0x5) ∧
    (decode w = .operation .stLen ↔ w.toNat = 0x6) ∧
    (decode w = .operation .stOvf ↔ w.toNat = 0x7) ∧
    (∀ (accel decel : Half) (min max : Velocity) (be : Bool),
      decode w = .operation (.rgCfg accel decel min max be) ↔
        w.toNat = 0x8 + 2 ^ 4 * be.toNat + 2 ^ 8 * accel.toNat + 2 ^ 24 * decel.toNat + 2 ^ 40 * min.toNat
          + 2 ^ 56 * max.toNat) ∧
    (∀ t : Velocity, decode w = .operation (.rgSett t) ↔ w.toNat = 0x9 + 2 ^ 8 * t.toNat) ∧
    (decode w = .operation .rgCur ↔ w.toNat = 0xA) ∧
    (decode w = .operation .rgTgt ↔ w.toNat = 0xB) ∧
    (decode w = .operation .tick ↔ w.toNat = 0xC)

/-- 30_encoding.md R92: at most one row matches a word; with no row, or with a row of another port, the word is refused;
otherwise the row's operation is performed with the operands extracted. -/
def Obligations.DecodingFollowsTheOpcodeMap : Prop :=
  ∀ (s : State) (p : Port) (w : EventWord),
    (∀ r ∈ opcodeMap, ∀ r' ∈ opcodeMap, w &&& r.mask = r.pattern → w &&& r'.mask = r'.pattern → r = r') ∧
    ((∀ r ∈ opcodeMap, w &&& r.mask ≠ r.pattern) →
      performOp p w s = .next { s with outputs := s.outputs ++ [.response p .errIllegal 0#64] }) ∧
    (∀ r ∈ opcodeMap, w &&& r.mask = r.pattern → r.port ≠ p →
      performOp p w s = .next { s with outputs := s.outputs ++ [.response p .errIllegal 0#64] }) ∧
    (∀ r ∈ opcodeMap, w &&& r.mask = r.pattern → r.port = p → performOp p w s = exec (r.op.extract w) s)

/-- 30_encoding.md R93: a word with an unassigned opcode, or with a reserved bit of its format set, is refused with
ERR_ILLEGAL, at every port. The reserved bits are those of R87 (format N), R88 (B), R89 (H), R90 (C). -/
def Obligations.IllegalWordsAreRefused : Prop :=
  ∀ (s : State) (p : Port) (w : EventWord),
    (w.extractLsb' 0 4 ∈ [0x0#4, 0xD#4, 0xE#4, 0xF#4]) ∨
    (w.extractLsb' 0 4 ∈ [0x1#4, 0x3#4, 0x5#4, 0x6#4, 0x7#4, 0xA#4, 0xB#4, 0xC#4] ∧ w.extractLsb' 4 68 ≠ 0#68) ∨
    (w.extractLsb' 0 4 ∈ [0x2#4, 0x4#4] ∧ (w.extractLsb' 4 4 ≠ 0#4 ∨ w.extractLsb' 16 56 ≠ 0#56)) ∨
    (w.extractLsb' 0 4 = 0x9#4 ∧ (w.extractLsb' 4 4 ≠ 0#4 ∨ w.extractLsb' 24 48 ≠ 0#48)) ∨
    (w.extractLsb' 0 4 = 0x8#4 ∧ w.extractLsb' 5 3 ≠ 0#3) →
    performOp p w s = .next { s with outputs := s.outputs ++ [.response p .errIllegal 0#64] }

/-- 30_encoding.md R94: the word of an operation that arrives on a port other than its own is refused with ERR_ILLEGAL. -/
def Obligations.WordsOnTheWrongPortAreRefused : Prop :=
  ∀ (s : State) (p : Port) (i : Instr), p ≠ i.port →
    performOp p (encode i) s = .next { s with outputs := s.outputs ++ [.response p .errIllegal 0#64] }

/-! ## Steps, reset, clock edges -/

/-- A step with an event word at hand performs the operation it decodes to, on the state with that word taken and the
outputs of the step before gone. (The interface is the model's: assumption log 6, 7.) -/
def Obligations.StepPerformsTheDecodedOperation : Prop :=
  ∀ (s : State) (p : Port) (w : EventWord) (rest : List Arrival) (i : Instr),
    s.inputs = .op p w :: rest → i.wfAt p → decodeAt p w = .operation i →
    step s = exec i { s with inputs := rest, outputs := [] }

/-- The word of any operation, placed where a step takes its next arrival, is performed by the very next step, at its own
port, with every operand. (What stands for a fetch is the model's: assumption log 10.) -/
def Obligations.ThePlacedWordIsPerformedNext : Prop :=
  ∀ (i : Instr) (s : State), step (s.withFetchWord 72 (encode i).toNat) = exec i { s with outputs := [] }

/-- 70_reset_and_hazards.md R250: at a clock edge with `rst = 1`, and at power-up, every register takes its reset value; no
operation offered in that cycle is performed and no output is emitted. (Which parameters `State.reset` has: log 2 to 5.) -/
def Obligations.ResetPutsEveryRegisterAtItsValue : Prop :=
  (∀ (s : State) (pins : InPins) (rest : List Arrival), s.inputs = .edge pins :: rest → pins.rst = true →
    step s = .next
      { params := s.params, crcAcc := s.params.crc.init, fdState := .idle, fdCount := 0#3, fdBuf := [], stQ := [],
        stOvf := 0#16, rgCurrent := 0#16, rgTarget := 0#16, rgDir := .acc, rgMin := 0#16, rgMax := 0#16,
        rgBoundsEn := false, rgAccelCmp := 0#20, rgDecelCmp := 0#20, rgConfigured := false, tmrRun := false,
        tmrCompare := 0#20, inputs := rest, outputs := [] }) ∧
  State.reset =
    { params := Config.params, crcAcc := Config.params.crc.init, fdState := .idle, fdCount := 0#3, fdBuf := [], stQ := [],
      stOvf := 0#16, rgCurrent := 0#16, rgTarget := 0#16, rgDir := .acc, rgMin := 0#16, rgMax := 0#16,
      rgBoundsEn := false, rgAccelCmp := 0#20, rgDecelCmp := 0#20, rgConfigured := false, tmrRun := false,
      tmrCompare := 0#20, inputs := [], outputs := [] } ∧
  (∀ a, Memory.read [] a = 0x00#8) ∧
  (State.reset.outPins.hResponse = none ∧ State.reset.outPins.ack = none ∧ State.reset.outPins.vel = none)

/-- 70_reset_and_hazards.md R251: with nothing offered the core is idle and stays so; no register changes and nothing is
emitted.
(Steps and arrivals are the model's: log 6, 7, 8.) -/
def Obligations.AnIdleCoreStaysIdle : Prop :=
  (∀ s : State, s.inputs = [] → step s = .next { s with outputs := [] }) ∧
  (∀ (s : State) (pins : InPins) (rest : List Arrival), s.inputs = .edge pins :: rest →
    pins.rst = false → pins.tick = false → pins.hValid = false → pins.rxValid = false →
    step s = .next { s with inputs := rest, outputs := [] })

/-- 20_memory.md R67 with 10_state.md R43 to R45: the operations offered in one clock cycle take effect in the order timer,
host, rx, and each is the same as its event word arriving at its port.
(Clock edges as arrivals are the model's: log 8.) -/
def Obligations.AClockEdgePerformsTimerThenHostThenRx : Prop :=
  ∀ (s : State) (pins : InPins), pins.rst = false →
    performEdge pins s = performAll
      ((if pins.tick then [Arrival.op .timer 0x00000000000000000C#72] else []) ++
       (if pins.hValid then [Arrival.op .host pins.hWord] else []) ++
       (if pins.rxValid then [Arrival.op .rx (0#56 ++ pins.rxData ++ 0#4 ++ 0x4#4)] else [])) s

/-- 10_state.md R43, R45, R46 with 41_frame_decoder.md R136 and 43_ramp.md R194: after a clock edge without reset the host
response is valid exactly when a host word was offered, the velocity exactly when an effective tick was, the
acknowledgment exactly when a frame closed with acknowledgment enabled; the two timer pins are the registers.
(The form of the outputs is the model's: log 7, 13.) -/
def Obligations.OutputPinsAfterAClockEdge : Prop :=
  ∀ (s t : State) (pins : InPins) (rest : List Arrival), s.inputs = .edge pins :: rest → pins.rst = false →
    step s = .next t →
    t.outPins.hResponse.isSome = pins.hValid ∧
    t.outPins.vel.isSome = (pins.tick && s.tmrRun) ∧
    t.outPins.ack.isSome = (pins.rxValid && s.fdState == .inFrame && s.fdCount == 7#3 && s.params.ackEnable) ∧
    t.outPins.tmrRun = t.tmrRun ∧ t.outPins.tmrCompare = t.tmrCompare

/-- 42_command_store.md R166: a full store that is popped in the cycle a frame closes accepts the new Command, which is the
little-endian number of the eight payload bytes (41_frame_decoder.md R130); the pop answers the oldest entry.
(Clock edges as arrivals are the model's: log 8.) -/
def Obligations.APopInTheSameCycleMakesRoom : Prop :=
  ∀ (s t : State) (pins : InPins) (head : Command) (q : List Command),
    pins.rst = false → pins.hValid = true → pins.hWord = 0x000000000000000005#72 → pins.rxValid = true →
    s.stQ = head :: q → s.stQ.length = s.params.storeDepth → s.fdState = .inFrame → s.fdCount = 7#3 →
    performEdge pins s = .next t →
    (crc16 s.params.crc (t.fdBuf.bytes 0 6)).toNat = (t.fdBuf.read 6).toNat + 256 * (t.fdBuf.read 7).toNat →
    ∃ cmd : Command,
      cmd.toNat = (t.fdBuf.read 0).toNat + 256 * (t.fdBuf.read 1).toNat + 256 ^ 2 * (t.fdBuf.read 2).toNat
        + 256 ^ 3 * (t.fdBuf.read 3).toNat + 256 ^ 4 * (t.fdBuf.read 4).toNat + 256 ^ 5 * (t.fdBuf.read 5).toNat
        + 256 ^ 6 * (t.fdBuf.read 6).toNat + 256 ^ 7 * (t.fdBuf.read 7).toNat ∧
      (∀ a, t.fdBuf.read a = if a = 7 then pins.rxData else s.fdBuf.read a) ∧
      t.stQ = q ++ [cmd] ∧ t.stOvf = s.stOvf ∧ OutEvent.response .host .ok head ∈ t.outputs

/-- 70_reset_and_hazards.md R252: the parameters are constant while the core runs, reset included. -/
def Obligations.ParametersNeverChange : Prop :=
  ∀ s t : State, step s = .next t → t.params = s.params

/-- 60_exceptions.md R222: no operation faults the core and every operation is performed or answered; so is every arrival.
(That the model has no fault is an inference: log 12.) -/
def Obligations.EveryOperationAndEveryStepCompletes : Prop :=
  (∀ (i : Instr) (s : State), ∃ t, exec i s = .next t) ∧ (∀ s : State, ∃ t, step s = .next t)

/-! ## Invariants -/

/-- The reset state is good (10_state.md R40 "hold after reset"), in every core with legal parameters (00_scope.md R8).
(The spec's own inference: "[derived: ...]" at R25, R40, R160. That the frame buffer is a list in canonical form is the
model's: log 11, DEDUCED. The parameters of `State.reset`, which are legal, are the model's: log 2, 3, 4, 5.) -/
def Obligations.ResetIsAGoodState : Prop :=
  GoodState State.reset ∧ ∀ p : Params, p.wf → GoodState (State.resetWith p)

/-- Every step from a good state leads to a good state: legal parameters (00_scope.md R8), counter 0 while Idle
(10_state.md R25), canonical frame buffer, a store within its depth (R28) that holds only valid Commands
(42_command_store.md R160), the ramp invariants (10_state.md R40).
(The spec's own inference: "[derived: ...]" at R25, R40, R160. That the frame buffer is a list in canonical form is the
model's: log 11, DEDUCED.) -/
def Obligations.EveryStepKeepsGoodStatesGood : Prop :=
  ∀ s t : State, GoodState s → step s = .next t → GoodState t

/-- 10_state.md R40: the ramp invariants (a) to (d) hold after reset and after every operation, and from (b) and (c) an
effective tick never leaves 16 bits.
(The spec's own inference: R40 is marked "[derived: from `43_ramp.md` rules R181, R185, R190 by induction over
operations]".) -/
def Obligations.RampInvariantsAndNoOverflow : Prop :=
  (∀ p : Params, RampInv (State.resetWith p)) ∧
  (∀ (i : Instr) (s t : State), RampInv s → exec i s = .next t → RampInv t) ∧
  (∀ s : State, RampInv s → s.tmrRun = true →
    (s.rgDir = .acc → s.rgCurrent.toInt + 1 ≤ s.rgTarget.toInt ∧ s.rgCurrent.toInt + 1 ≤ 32767) ∧
    (s.rgDir = .dec → s.rgCurrent.toInt - 1 ≥ s.rgTarget.toInt ∧ s.rgCurrent.toInt - 1 ≥ -32768))

/-! ## Responses and statuses -/

/-- 60_exceptions.md R224 with 00_scope.md R14: every word offered gets exactly one response, the last thing the operation
sends, at the port it arrived on; a response other than OK carries data 0 and comes with no output, no timer event and no
change of any register. -/
def Obligations.EveryWordIsAnsweredOnceAndRefusalsArePrecise : Prop :=
  ∀ (p : Port) (w : EventWord) (s t : State), performOp p w s = .next t →
    ∃ (evs : List OutEvent) (st : Status) (d : BitVec 64),
      t.outputs = s.outputs ++ evs ++ [.response p st d] ∧ evs.filterMap statusOf = [] ∧
      (st ≠ .ok → evs = [] ∧ d = 0#64 ∧ t = { s with outputs := s.outputs ++ [.response p st 0#64] })

/-- 60_exceptions.md R220, R223: the condition of every status but OK, and the codes. -/
def Obligations.StatusConditions : Prop :=
  (Status.code .ok = 0x0#4 ∧ Status.code .empty = 0x1#4 ∧ Status.code .ignored = 0x2#4 ∧ Status.code .errCfg = 0x3#4 ∧
    Status.code .errNocfg = 0x4#4 ∧ Status.code .errIllegal = 0x5#4) ∧
  ∀ (p : Port) (w : EventWord) (s t : State) (st : Status) (d : BitVec 64),
    performOp p w s = .next t → t.outputs.getLast? = some (.response p st d) →
    (st ≠ .ok → d = 0#64 ∧ t = { s with outputs := s.outputs ++ [.response p st 0#64] }) ∧
    (st = .errIllegal ↔ ∀ i, decodeAt p w ≠ .operation i) ∧
    (st = .empty ↔ decodeAt p w = .operation .stPop ∧ s.stQ.length = 0) ∧
    (st = .ignored ↔ decodeAt p w = .operation .tick ∧ s.tmrRun = false) ∧
    (st = .errCfg ↔ ∃ accel decel min max be, decodeAt p w = .operation (.rgCfg accel decel min max be) ∧
      (accel = 0#16 ∨ decel = 0#16 ∨ min.toInt > max.toInt)) ∧
    (st = .errNocfg ↔ ∃ v, decodeAt p w = .operation (.rgSett v) ∧ s.rgConfigured = false)

/-- 70_reset_and_hazards.md R253: what the reading operations, RG.SETT and TICK answer in the reset state. -/
def Obligations.AnswersInTheResetState : Prop :=
  ∀ (p : Params) (v : Velocity),
    (exec .rgCur (State.resetWith p) = .next ((State.resetWith p).respond .host .ok 0#64)) ∧
    (exec .rgTgt (State.resetWith p) = .next ((State.resetWith p).respond .host .ok 0#64)) ∧
    (exec .stPop (State.resetWith p) = .next ((State.resetWith p).respond .host .empty 0#64)) ∧
    (exec .stLen (State.resetWith p) = .next ((State.resetWith p).respond .host .ok 0#64)) ∧
    (exec .stOvf (State.resetWith p) = .next ((State.resetWith p).respond .host .ok 0#64)) ∧
    (exec .crcRead (State.resetWith p) =
      .next ((State.resetWith p).respond .host .ok ((crcFinal p.crc p.crc.init).setWidth 64))) ∧
    (exec (.rgSett v) (State.resetWith p) = .next ((State.resetWith p).respond .host .errNocfg 0#64)) ∧
    (exec .tick (State.resetWith p) = .next ((State.resetWith p).respond .timer .ignored 0#64))

/-! ## Frames: what an operation leaves unchanged -/

/-- 20_memory.md R71 (the written-by column of 10_state.md R49): each block touches only its own registers. For RX.BYTE the
stored byte is at `fd_count`, and only while a frame is open; no other operation stores a byte.
(The spec's own inference, as R71; the list of registers is the written-by column of R49.) -/
def Obligations.OperationsTouchOnlyTheirRegisters : Prop :=
  ∀ (i : Instr) (s t : State), exec i s = .next t →
    (blockOf i = .crc → t = { s with crcAcc := t.crcAcc, outputs := t.outputs }) ∧
    (blockOf i = .store → t = { s with stQ := t.stQ, outputs := t.outputs }) ∧
    (blockOf i = .decoder → t = { s with
      fdState := t.fdState, fdCount := t.fdCount, fdBuf := t.fdBuf, stQ := t.stQ, stOvf := t.stOvf,
      outputs := t.outputs }) ∧
    (∀ accel decel min max be, i = .rgCfg accel decel min max be →
      t = { s with
        rgAccelCmp := t.rgAccelCmp, rgDecelCmp := t.rgDecelCmp, rgMin := t.rgMin, rgMax := t.rgMax,
        rgBoundsEn := t.rgBoundsEn, rgConfigured := t.rgConfigured, outputs := t.outputs }) ∧
    (∀ v, i = .rgSett v →
      t = { s with
        rgTarget := t.rgTarget, rgCurrent := t.rgCurrent, rgDir := t.rgDir, tmrCompare := t.tmrCompare,
        tmrRun := t.tmrRun, outputs := t.outputs }) ∧
    (i = .tick → t = { s with rgCurrent := t.rgCurrent, tmrRun := t.tmrRun, outputs := t.outputs }) ∧
    (blockOf i ≠ .decoder → ∀ a, t.fdBuf.read a = s.fdBuf.read a) ∧
    (blockOf i = .decoder → ∀ a, (s.fdState = .idle ∨ a ≠ s.fdCount.toNat) → t.fdBuf.read a = s.fdBuf.read a)

/-- 60_exceptions.md R229: access control by port of origin. Whatever word arrives, the rx port changes only the decoder and
the store and only lengthens the store; the timer port only `rg_current` and `tmr_run`; the host port neither the decoder
nor the overflow counter, and it never lengthens the store. -/
def Obligations.PortsReachOnlyTheirRegisters : Prop :=
  ∀ (w : EventWord) (s t : State),
    (performOp .rx w s = .next t →
      t = { s with
        fdState := t.fdState, fdCount := t.fdCount, fdBuf := t.fdBuf, stQ := t.stQ, stOvf := t.stOvf,
        outputs := t.outputs } ∧ ∃ new, t.stQ = s.stQ ++ new) ∧
    (performOp .timer w s = .next t → t = { s with rgCurrent := t.rgCurrent, tmrRun := t.tmrRun, outputs := t.outputs }) ∧
    (performOp .host w s = .next t →
      t.fdState = s.fdState ∧ t.fdCount = s.fdCount ∧ t.fdBuf = s.fdBuf ∧ t.stOvf = s.stOvf ∧ ∃ gone, s.stQ = gone ++ t.stQ)

/-- 20_memory.md R71: the CRC operations commute with every operation of the other blocks, and RX.BYTE with every ramp
operation: either order leaves the same registers, and each operation sends the same in either order.
(The spec's own inference: R71 is marked "[derived: from the written-by and read-by columns ...]".) -/
def Obligations.OperationsOfSeparateBlocksCommute : Prop :=
  ∀ (i j : Instr) (s : State),
    (blockOf i = .crc ∧ blockOf j ≠ .crc) ∨ (blockOf i = .decoder ∧ blockOf j = .ramp) →
    ∃ (t t' : State) (ei ej : List OutEvent),
      execAll [i, j] s = .next t ∧ execAll [j, i] s = .next t' ∧ { t with outputs := [] } = { t' with outputs := [] } ∧
      t.outputs = s.outputs ++ ei ++ ej ∧ t'.outputs = s.outputs ++ ej ++ ei

/-! ## The CRC block -/

/-- 40_crc.md R114: the word of CRC.INIT, at the host port only, and its effect. -/
def Obligations.CrcInitLoadsTheInitialValue : Prop :=
  IsWordOf .host 0x000000000000000001#72 .crcInit ∧
  ∀ s : State, exec .crcInit s =
    .next { s with crcAcc := s.params.crc.init, outputs := s.outputs ++ [.response .host .ok 0#64] }

/-- 40_crc.md R115: the word of CRC.BYTE with each byte, at the host port only, and its effect. -/
def Obligations.CrcByteStepsTheAccumulator : Prop :=
  ∀ b : Byte, IsWordOf .host (0#56 ++ b ++ 0#4 ++ 0x2#4) (.crcByte b) ∧
    ∀ s : State, exec (.crcByte b) s =
      .next { s with crcAcc := crcStep s.params.crc s.crcAcc b, outputs := s.outputs ++ [.response .host .ok 0#64] }

/-- 40_crc.md R111, R116: the word of CRC.READ, at the host port only; it answers the final value of the accumulator,
zero-extended, and the accumulator stays. Bit by bit: bits 0 to 15 are those of the accumulator, in reverse order when
`CRC_REFOUT`, xored with `CRC_XOROUT`; bits 16 to 63 are 0. -/
def Obligations.CrcReadAnswersTheFinalValue : Prop :=
  IsWordOf .host 0x000000000000000003#72 .crcRead ∧
  ∀ s : State, ∃ d : BitVec 64, exec .crcRead s = .next { s with outputs := s.outputs ++ [.response .host .ok d] } ∧
    d.toNat = (crcFinal s.params.crc s.crcAcc).toNat ∧
    (∀ i, i < 16 → d.getLsbD i =
      ((if s.params.crc.refOut then s.crcAcc.getLsbD (15 - i) else s.crcAcc.getLsbD i) ^^ s.params.crc.xorOut.getLsbD i)) ∧
    (∀ i, 16 ≤ i → i < 64 → d.getLsbD i = false)

/-- 40_crc.md R110 on numbers: the input byte, its bits reversed when `CRC_REFIN`, is xored onto bits 15 to 8; then eight
times: shift left within 16 bits, and xor the polynomial when bit 15 was 1. -/
def Obligations.CrcStepIsTheBitSerialAlgorithm : Prop :=
  ∀ (p : CrcParams) (c : Half) (b d : Byte),
    (∀ i, i < 8 → d.getLsbD i = if p.refIn then b.getLsbD (7 - i) else b.getLsbD i) →
    (crcStep p c b).toNat =
      (fun x : Nat => if x.testBit 15 then (2 * x % 65536) ^^^ p.poly.toNat else 2 * x % 65536)^[8]
        (c.toNat ^^^ (d.toNat * 256))

/-- 40_crc.md R117: after CRC.INIT, whatever operations of other blocks stand between the bytes, CRC.READ answers the `crc16`
of the bytes given since.
(The spec's own inference: R117 is marked "[derived: from rules R112 to R116]".) -/
def Obligations.CrcComputationsAreIndependent : Prop :=
  ∀ (s : State) (ops : List Instr), (∀ i ∈ ops, blockOf i = .crc → ∃ b, i = .crcByte b) →
    ∃ t : State, execAll (.crcInit :: ops) s = .next t ∧
      exec .crcRead t = .next { t with outputs := t.outputs ++
        [.response .host .ok ((crc16 s.params.crc (ops.filterMap crcOperandOf)).setWidth 64)] }

/-- 40_crc.md R119 (a): with a zero initial value and a zero final xor, zero bytes have checksum 0 and the all-zero payload is
a valid Command.
(The spec's own inference: R119 is marked "[derived: from rules R110 to R113]"; here for every polynomial.) -/
def Obligations.ZeroBytesWithZeroInitHaveChecksumZero : Prop :=
  ∀ (p : CrcParams) (n : Nat), p.init = 0#16 → p.xorOut = 0#16 →
    crc16 p (List.replicate n 0x00#8) = 0#16 ∧ commandValid p 0#64 = true

/-- 40_crc.md R119 (b): without reflection and final xor, a message followed by its checksum, high byte first, folds to 0.
(The spec's own inference, as the one before.) -/
def Obligations.ChecksumHighByteFirstFoldsToZero : Prop :=
  ∀ (p : CrcParams) (msg : List Byte), p.refIn = false → p.refOut = false → p.xorOut = 0#16 →
    crcFold p p.init (msg ++ [(crc16 p msg).extractLsb' 8 8, (crc16 p msg).extractLsb' 0 8]) = 0#16

/-- 40_crc.md R119 (c): for the polynomial 0x1021, one step is a bijection of the accumulator and injective in the byte.
(The spec's own inference, as the one before.) -/
def Obligations.CrcStepIsBijective : Prop :=
  ∀ p : CrcParams, p.poly = 0x1021#16 →
    (∀ b, Function.Bijective (fun c => crcStep p c b)) ∧ (∀ c, Function.Injective (fun b => crcStep p c b))

/-! ## The frame decoder -/

/-- 41_frame_decoder.md R131: in Idle the sentinel opens a frame and is not stored; any other byte changes nothing. -/
def Obligations.RxByteWhileIdle : Prop :=
  ∀ (b : Byte) (s : State), s.fdState = .idle →
    (b = s.params.startByte → exec (.rxByte b) s =
      .next { s with fdState := .inFrame, fdCount := 0#3, outputs := s.outputs ++ [.response .rx .ok 0#64] }) ∧
    (b ≠ s.params.startByte → exec (.rxByte b) s = .next { s with outputs := s.outputs ++ [.response .rx .ok 0#64] })

/-- 41_frame_decoder.md R132: in InFrame every byte, the sentinel value and the eighth byte included, is stored at the byte
counter, and at no other place; before the eighth byte the counter increments and no other register changes. -/
def Obligations.RxByteStoresPayload : Prop :=
  ∀ (b : Byte) (s : State), s.fdState = .inFrame →
    (∃ t, exec (.rxByte b) s = .next t ∧ ∀ a, t.fdBuf.read a = if a = s.fdCount.toNat then b else s.fdBuf.read a) ∧
    (s.fdCount.toNat < 7 → ∃ (m : Memory) (n : BitVec 3), n.toNat = s.fdCount.toNat + 1 ∧
      exec (.rxByte b) s = .next { s with fdBuf := m, fdCount := n, outputs := s.outputs ++ [.response .rx .ok 0#64] })

/-- 41_frame_decoder.md R130 case 4, R134: the eighth byte closes the frame. The checksum of payload bytes 0 to 5 is compared
with the number of bytes 6 and 7, low byte first; on a match the Command is pushed, otherwise dropped; the counter is 0 and
the state Idle in both outcomes. -/
def Obligations.RxByteClosesTheFrame : Prop :=
  ∀ (b : Byte) (s : State), s.fdState = .inFrame → s.fdCount = 7#3 →
    ∃ m : Memory, (∀ a, m.read a = if a = 7 then b else s.fdBuf.read a) ∧
      ((crc16 s.params.crc [m.read 0, m.read 1, m.read 2, m.read 3, m.read 4, m.read 5]).toNat
          = (m.read 6).toNat + 256 * (m.read 7).toNat →
        ∃ (cmd : Command) (q : List Command) (ovf : Half),
          cmd.toNat = (m.read 0).toNat + 256 * (m.read 1).toNat + 256 ^ 2 * (m.read 2).toNat + 256 ^ 3 * (m.read 3).toNat
            + 256 ^ 4 * (m.read 4).toNat + 256 ^ 5 * (m.read 5).toNat + 256 ^ 6 * (m.read 6).toNat
            + 256 ^ 7 * (m.read 7).toNat ∧
          (s.stQ.length < s.params.storeDepth → q = s.stQ ++ [cmd] ∧ ovf = s.stOvf) ∧
          (s.params.storeDepth ≤ s.stQ.length → q = s.stQ ∧ ovf.toNat = min (s.stOvf.toNat + 1) 0xFFFF) ∧
          exec (.rxByte b) s = .next { s with
            fdBuf := m, fdState := .idle, fdCount := 0#3, stQ := q, stOvf := ovf,
            outputs := s.outputs ++ (if s.params.ackEnable then [.ack s.params.ackPass] else [])
              ++ [.response .rx .ok 0#64] }) ∧
      ((crc16 s.params.crc [m.read 0, m.read 1, m.read 2, m.read 3, m.read 4, m.read 5]).toNat
          ≠ (m.read 6).toNat + 256 * (m.read 7).toNat →
        exec (.rxByte b) s = .next { s with
          fdBuf := m, fdState := .idle, fdCount := 0#3,
          outputs := s.outputs ++ (if s.params.ackEnable then [.ack s.params.ackFail] else [])
            ++ [.response .rx .ok 0#64] })

/-- 41_frame_decoder.md R136: exactly one acknowledgment byte per close when enabled, telling the checksum outcome only, and
none at any other time, from any operation. -/
def Obligations.AcknowledgmentsExactlyAtTheClose : Prop :=
  ∀ (i : Instr) (s t : State) (evs : List OutEvent), exec i s = .next t → t.outputs = s.outputs ++ evs →
    (blockOf i = .decoder ∧ s.fdState = .inFrame ∧ s.fdCount = 7#3 ∧ s.params.ackEnable = true →
      evs.filterMap ackByteOf =
        [if (crc16 s.params.crc (t.fdBuf.bytes 0 6)).toNat = (t.fdBuf.read 6).toNat + 256 * (t.fdBuf.read 7).toNat
         then s.params.ackPass else s.params.ackFail]) ∧
    (¬ (blockOf i = .decoder ∧ s.fdState = .inFrame ∧ s.fdCount = 7#3 ∧ s.params.ackEnable = true) →
      evs.filterMap ackByteOf = [])

/-- 41_frame_decoder.md R135: the decoder neither reads nor writes `crc_acc`: with any other value in it, RX.BYTE does the
same and leaves that value.
(The part of R135 about `crc_acc`; the function evaluated is in RxByteClosesTheFrame.) -/
def Obligations.TheDecoderNeverUsesTheAccumulator : Prop :=
  ∀ (b : Byte) (s t : State) (c : Half), exec (.rxByte b) s = .next t →
    t.crcAcc = s.crcAcc ∧ exec (.rxByte b) { s with crcAcc := c } = .next { t with crcAcc := c }

/-- 10_state.md R27: bytes left in the buffer from an earlier frame or from reset are never observable: two states that differ
only in them answer and emit the same, for every operation, and still differ only in such bytes.
(The spec's own inference: R27 is marked "[derived: from rule R26 and `41_frame_decoder.md` rules R131, R132, R134]";
that stale bytes are kept is log 11.) -/
def Obligations.StaleBufferBytesAreNeverObservable : Prop :=
  ∀ (i : Instr) (s s' : State), SameButStale s s' →
    ∃ t t', exec i s = .next t ∧ exec i s' = .next t' ∧ SameButStale t t'

/-- 41_frame_decoder.md R142 (a): for every Command, its nine bytes fed to a decoder in Idle with a non-full store append it
to the store; one accept byte (if enabled) and no reject byte is emitted.
(The spec's own inference: R142 is marked "[derived: from rule R130]".) -/
def Obligations.AGoodFrameIsAccepted : Prop :=
  ∀ (s : State) (speed : Velocity) (accel decel : Half), s.fdState = .idle → s.stQ.length < s.params.storeDepth →
    ∃ (t : State) (cmd : Command), execAll (rxFrame s.params speed accel decel) s = .next t ∧
      t.stQ = s.stQ ++ [cmd] ∧ speedOf cmd = speed ∧ accelerationOf cmd = accel ∧ decelerationOf cmd = decel ∧
      commandValid s.params.crc cmd = true ∧ t.fdState = .idle ∧ t.fdCount = 0#3 ∧ t.stOvf = s.stOvf ∧
      t.outputs.filterMap ackByteOf =
        s.outputs.filterMap ackByteOf ++ (if s.params.ackEnable then [s.params.ackPass] else [])

/-- 41_frame_decoder.md R142 (b), R138: a frame whose checksum bytes do not match appends nothing and emits exactly one reject
byte (if enabled), and the good frame after it is accepted.
(The spec's own inference, as the one before.) -/
def Obligations.ABadFrameIsRejectedAndTheNextAccepted : Prop :=
  ∀ (s : State) (data : List Byte) (lo hi : Byte) (speed : Velocity) (accel decel : Half),
    s.fdState = .idle → s.stQ.length < s.params.storeDepth → data.length = 6 →
    (crc16 s.params.crc data).toNat ≠ lo.toNat + 256 * hi.toNat →
    ∃ t u : State, execAll (rxBytes (s.params.startByte :: (data ++ [lo, hi]))) s = .next t ∧
      t.stQ = s.stQ ∧ t.stOvf = s.stOvf ∧ t.fdState = .idle ∧ t.fdCount = 0#3 ∧
      t.outputs.filterMap ackByteOf =
        s.outputs.filterMap ackByteOf ++ (if s.params.ackEnable then [s.params.ackFail] else []) ∧
      execAll (rxFrame s.params speed accel decel) t = .next u ∧ u.stQ = s.stQ ++ [commandOf s.params speed accel decel]

/-- 41_frame_decoder.md R142 (c): bytes without the sentinel, fed in Idle, change no register and emit nothing.
(The spec's own inference, as the one before.) -/
def Obligations.GarbageWithoutASentinelDoesNothing : Prop :=
  ∀ (s : State) (bytes : List Byte), s.fdState = .idle → s.params.startByte ∉ bytes →
    execAll (rxBytes bytes) s =
      .next { s with outputs := s.outputs ++ List.replicate bytes.length (.response .rx .ok 0#64) }

/-- 41_frame_decoder.md R142 (d), for any number of frames: frames fed with nothing between them are all accepted, in
order, while the store has room.
(The spec's own inference, as the one before.) -/
def Obligations.BackToBackFramesAreAllAccepted : Prop :=
  ∀ (s : State) (cmds : List (Velocity × Half × Half)), s.fdState = .idle →
    s.stQ.length + cmds.length ≤ s.params.storeDepth →
    ∃ t : State, execAll (cmds.flatMap (fun c => rxFrame s.params c.1 c.2.1 c.2.2)) s = .next t ∧
      t.fdState = .idle ∧ t.stOvf = s.stOvf ∧
      t.stQ = s.stQ ++ cmds.map (fun c => commandOf s.params c.1 c.2.1 c.2.2)

/-! ## The Command Store -/

/-- 42_command_store.md R161: a push appends at the tail, or, with the store full, leaves the store and counts, the counter
saturating at 0xFFFF. -/
def Obligations.PushAppendsOrCounts : Prop :=
  ∀ (s : State) (cmd : Command),
    (s.stQ.length < s.params.storeDepth → s.stPush cmd = { s with stQ := s.stQ ++ [cmd] }) ∧
    (s.params.storeDepth ≤ s.stQ.length →
      ∃ n : Half, s.stPush cmd = { s with stOvf := n } ∧ n.toNat = min (s.stOvf.toNat + 1) 0xFFFF)

/-- 42_command_store.md R162: the word of ST.POP, at the host port only; it answers EMPTY, with no state change, or removes
and answers the oldest entry. -/
def Obligations.PopAnswersTheOldestEntry : Prop :=
  IsWordOf .host 0x000000000000000005#72 .stPop ∧
  ∀ s : State,
    (s.stQ = [] → exec .stPop s = .next { s with outputs := s.outputs ++ [.response .host .empty 0#64] }) ∧
    (∀ head rest, s.stQ = head :: rest →
      exec .stPop s = .next { s with stQ := rest, outputs := s.outputs ++ [.response .host .ok head] })

/-- 42_command_store.md R163, R164: the words of ST.LEN and ST.OVF, at the host port only; ST.LEN answers the number of entries, ST.OVF the overflow counter, zero-extended; neither
changes a register, so reading does not clear the counter. A 4-bit `st_len` holds every length up to 15 (00_scope.md R8). -/
def Obligations.LenAndOvfAnswerTheCounts : Prop :=
  IsWordOf .host 0x000000000000000006#72 .stLen ∧ IsWordOf .host 0x000000000000000007#72 .stOvf ∧
  ∀ s : State, ∃ l o : BitVec 64,
    exec .stLen s = .next { s with outputs := s.outputs ++ [.response .host .ok l] } ∧
    exec .stOvf s = .next { s with outputs := s.outputs ++ [.response .host .ok o] } ∧
    (s.stQ.length ≤ 15 → l.toNat = s.stQ.length) ∧ o.toNat = s.stOvf.toNat

/-- 42_command_store.md R165: the store is first-in first-out. Commands pushed into an empty store with no overflow come out
in order and then EMPTY; and with pushes and pops interleaved and none dropped, the Commands popped and those still held
are those held before and those pushed, in order, each once.
(The spec's own inference: R165 is marked "[derived: from rules R161, R162]".) -/
def Obligations.TheStoreIsFirstInFirstOut : Prop :=
  (∀ (s : State) (cmds : List Command), s.stQ = [] → cmds.length ≤ s.params.storeDepth →
    execAll (List.replicate (cmds.length + 1) .stPop) (cmds.foldl State.stPush s) =
      .next { s with outputs := s.outputs ++ cmds.map (.response .host .ok) ++ [.response .host .empty 0#64] }) ∧
  (∀ (s t : State) (acts : List StoreAct), storeRun acts s = .next t → s.stOvf ≠ 0xFFFF#16 → t.stOvf = s.stOvf →
    ∃ evs, t.outputs = s.outputs ++ evs ∧ evs.filterMap okDataOf ++ t.stQ = s.stQ ++ acts.filterMap pushedOf)

/-- 10_state.md R28, R30 with 70_reset_and_hazards.md R251: no operation shortens the store but ST.POP, by its oldest entry,
none lengthens it but RX.BYTE, by one at the tail, and none lowers the overflow counter or clears `rg_configured`; an open
frame is closed only by RX.BYTE. -/
def Obligations.OnlyResetForgets : Prop :=
  ∀ (i : Instr) (s t : State), exec i s = .next t →
    (t.stQ = s.stQ ∨ (i = .stPop ∧ t.stQ = s.stQ.tail) ∨ (∃ b cmd, i = .rxByte b ∧ t.stQ = s.stQ ++ [cmd])) ∧
    s.stOvf.toNat ≤ t.stOvf.toNat ∧ (t.stOvf ≠ s.stOvf → blockOf i = .decoder ∧ s.params.storeDepth ≤ s.stQ.length) ∧
    (s.rgConfigured = true → t.rgConfigured = true) ∧
    (s.fdState = .inFrame → t.fdState = .idle → blockOf i = .decoder ∧ s.fdCount = 7#3)

/-! ## The ramp block -/

/-- 43_ramp.md R182: both divisions truncate, in that order, and the result is at most 1 000 000, so that it fits 20 bits.
60_exceptions.md R232: the programmed period is never above the exact one and less than one granularity below it. (The
spec's own inference: 90_conflicts.md C14 calls this bound derived and informative.) -/
def Obligations.RateConversion : Prop :=
  ∀ (g : Nat) (r : Half), 1 ≤ g → r ≠ 0#16 →
    (rateToCmp g r).toNat = 1000000 / r.toNat / g ∧ (rateToCmp g r).toNat ≤ 1000000 ∧
    (rateToCmp g r).toNat * g * r.toNat ≤ 1000000 ∧ 1000000 < ((rateToCmp g r).toNat * g + g) * r.toNat

/-- 43_ramp.md R181, R184: the word of RG.CFG with each operand, at the host port only. With a zero rate or inverted bounds
it is refused; otherwise it writes the six registers of the configuration, the rates converted (R182), and nothing else. -/
def Obligations.CfgLoadsOrRefuses : Prop :=
  ∀ (accel decel : Half) (mn mx : Velocity) (be : Bool) (s : State), 1 ≤ s.params.granularity →
    IsWordOf .host (mx ++ mn ++ decel ++ accel ++ 0#3 ++ BitVec.ofBool be ++ 0x8#4) (.rgCfg accel decel mn mx be) ∧
    (accel = 0#16 ∨ decel = 0#16 ∨ mn.toInt > mx.toInt →
      exec (.rgCfg accel decel mn mx be) s = .next { s with outputs := s.outputs ++ [.response .host .errCfg 0#64] }) ∧
    (accel ≠ 0#16 ∧ decel ≠ 0#16 ∧ mn.toInt ≤ mx.toInt →
      ∃ ac dc : Compare, ac.toNat = 1000000 / accel.toNat / s.params.granularity ∧
        dc.toNat = 1000000 / decel.toNat / s.params.granularity ∧
        exec (.rgCfg accel decel mn mx be) s = .next { s with
          rgAccelCmp := ac, rgDecelCmp := dc, rgMin := mn, rgMax := mx, rgBoundsEn := be, rgConfigured := true,
          outputs := s.outputs ++ [.response .host .ok 0#64] })

/-- 43_ramp.md R185, R187, R188: the word of RG.SETT with each target, at the host port only. It is refused before any
successful RG.CFG; otherwise target and current are clamped when bounds are enforced, and the clamped values choose the
direction, the period and the start, or stop the timer when equal. -/
def Obligations.SettStartsRedirectsOrCancels : Prop :=
  ∀ (t : Velocity) (s : State),
    IsWordOf .host (0#48 ++ t ++ 0#4 ++ 0x9#4) (.rgSett t) ∧
    (s.rgConfigured = false →
      exec (.rgSett t) s = .next { s with outputs := s.outputs ++ [.response .host .errNocfg 0#64] }) ∧
    (s.rgConfigured = true → ∃ tt cc : Velocity,
      tt.toInt = (if s.rgBoundsEn then clampInt t.toInt s.rgMin.toInt s.rgMax.toInt else t.toInt) ∧
      cc.toInt = (if s.rgBoundsEn then clampInt s.rgCurrent.toInt s.rgMin.toInt s.rgMax.toInt else s.rgCurrent.toInt) ∧
      (tt.toInt > cc.toInt → exec (.rgSett t) s = .next { s with
        rgTarget := tt, rgCurrent := cc, rgDir := .acc, tmrCompare := s.rgAccelCmp, tmrRun := true,
        outputs := s.outputs ++ [.setPeriod s.rgAccelCmp, .timerStart, .response .host .ok 0#64] }) ∧
      (tt.toInt < cc.toInt → exec (.rgSett t) s = .next { s with
        rgTarget := tt, rgCurrent := cc, rgDir := .dec, tmrCompare := s.rgDecelCmp, tmrRun := true,
        outputs := s.outputs ++ [.setPeriod s.rgDecelCmp, .timerStart, .response .host .ok 0#64] }) ∧
      (tt.toInt = cc.toInt → exec (.rgSett t) s = .next { s with
        rgTarget := tt, rgCurrent := cc, tmrRun := false,
        outputs := s.outputs ++ [.timerStop, .response .host .ok 0#64] }))

/-- 43_ramp.md R186: with bounds enforced, RG.SETT clamps target and current into the bounds at once, RG.TGT then answers the
clamped target, and the direction and the start are decided on the clamped values. -/
def Obligations.SettClampsTargetAndCurrent : Prop :=
  ∀ (v : Velocity) (s : State), s.rgConfigured = true → s.rgBoundsEn = true → s.rgMin.toInt ≤ s.rgMax.toInt →
    ∃ t, exec (.rgSett v) s = .next t ∧
      t.rgTarget.toInt = max s.rgMin.toInt (min v.toInt s.rgMax.toInt) ∧
      t.rgCurrent.toInt = max s.rgMin.toInt (min s.rgCurrent.toInt s.rgMax.toInt) ∧
      (t.rgTarget.toInt > t.rgCurrent.toInt → t.rgDir = .acc ∧ t.tmrRun = true) ∧
      (t.rgTarget.toInt < t.rgCurrent.toInt → t.rgDir = .dec ∧ t.tmrRun = true) ∧
      (t.rgTarget.toInt = t.rgCurrent.toInt → t.rgDir = s.rgDir ∧ t.tmrRun = false) ∧
      exec .rgTgt t = .next { t with outputs := t.outputs ++ [.response .host .ok (t.rgTarget.setWidth 64)] }

/-- 43_ramp.md R190, R191, R193: the word of TICK, at the timer port only. A tick with the timer stopped is ignored. An effective
tick, on the states in which the ramp invariants hold (10_state.md R40): step by one, test both bounds and clamp, test the
target on the clamped value, stop at most once, emit the new velocity. -/
def Obligations.TickStepsClampsAndStops : Prop :=
  IsWordOf .timer 0x00000000000000000C#72 .tick ∧
  (∀ s : State, s.tmrRun = false →
    exec .tick s = .next { s with outputs := s.outputs ++ [.response .timer .ignored 0#64] }) ∧
  ∀ s : State, RampInv s → s.tmrRun = true →
    ∃ (n n' : Int) (atBound stop : Bool) (v : Velocity),
      n = (if s.rgDir = .acc then s.rgCurrent.toInt + 1 else s.rgCurrent.toInt - 1) ∧
      (n', atBound) = (if s.rgBoundsEn then
          (if n ≥ s.rgMax.toInt then (s.rgMax.toInt, true) else if n ≤ s.rgMin.toInt then (s.rgMin.toInt, true)
           else (n, false))
        else (n, false)) ∧
      (stop = true ↔ atBound = true ∨ (s.rgDir = .acc ∧ n' ≥ s.rgTarget.toInt) ∨ (s.rgDir = .dec ∧ n' ≤ s.rgTarget.toInt)) ∧
      v.toInt = n' ∧
      exec .tick s = .next { s with
        rgCurrent := v, tmrRun := !stop,
        outputs := s.outputs ++ (if stop then [.timerStop] else []) ++ [.vel v, .response .timer .ok 0#64] }

/-- 43_ramp.md R192, with conflict C9: with bounds enforced, an effective tick in a good state ends inside the bounds, whatever
RG.CFG did to them meanwhile, and when it meets a bound the timer stops even short of the target.
(An inference from R190 and R192.) -/
def Obligations.AnEffectiveTickEndsInsideTheBounds : Prop :=
  ∀ s t : State, RampInv s → s.tmrRun = true → s.rgBoundsEn = true → exec .tick s = .next t →
    s.rgMin.toInt ≤ t.rgCurrent.toInt ∧ t.rgCurrent.toInt ≤ s.rgMax.toInt ∧
    (t.rgCurrent = s.rgMin ∨ t.rgCurrent = s.rgMax → t.tmrRun = false) ∧ t.rgTarget = s.rgTarget

/-- 43_ramp.md R194: every effective tick emits exactly one velocity, the new `rg_current`; nothing else ever emits one. -/
def Obligations.VelocitiesExactlyAtEffectiveTicks : Prop :=
  ∀ (i : Instr) (s t : State) (evs : List OutEvent), exec i s = .next t → t.outputs = s.outputs ++ evs →
    (i = .tick ∧ s.tmrRun = true → evs.filterMap velocityOf = [t.rgCurrent]) ∧
    (¬ (i = .tick ∧ s.tmrRun = true) → evs.filterMap velocityOf = [])

/-- 43_ramp.md R195, R196: the words of RG.CUR and RG.TGT, at the host port only; they answer the 16-bit pattern of the
velocity, zero-extended, and change nothing. -/
def Obligations.CurAndTgtAnswerTheVelocities : Prop :=
  IsWordOf .host 0x00000000000000000A#72 .rgCur ∧ IsWordOf .host 0x00000000000000000B#72 .rgTgt ∧
  ∀ s : State, ∃ c g : BitVec 64,
    exec .rgCur s = .next { s with outputs := s.outputs ++ [.response .host .ok c] } ∧
    exec .rgTgt s = .next { s with outputs := s.outputs ++ [.response .host .ok g] } ∧
    c.toNat = s.rgCurrent.toNat ∧ g.toNat = s.rgTarget.toNat

/-- 43_ramp.md R200 with R198, R201 (a): a ramp started by RG.SETT with clamped target and current a distance `d` apart runs
for exactly `d` effective ticks of one unit each if nothing intervenes, emitting the values in between and the target
last, and the timer is then stopped.
(The spec's own inference: R200, R201 are marked "[derived: from rules R185, R190]".) -/
def Obligations.ARampTakesExactlyItsDistanceInTicks : Prop :=
  ∀ (s : State) (v : Velocity), RampInv s → s.rgConfigured = true →
    ∃ s1, exec (.rgSett v) s = .next s1 ∧
      ∀ k, k ≤ (s1.rgTarget.toInt - s1.rgCurrent.toInt).natAbs →
        ∃ u, execAll (ticks k) s1 = .next u ∧
          u.rgCurrent.toInt = s1.rgCurrent.toInt + k * (s1.rgTarget.toInt - s1.rgCurrent.toInt).sign ∧
          (u.tmrRun = true ↔ k < (s1.rgTarget.toInt - s1.rgCurrent.toInt).natAbs) ∧
          (u.outputs.filterMap velocityOf).map BitVec.toInt = (s1.outputs.filterMap velocityOf).map BitVec.toInt ++
            (List.range k).map (fun j : Nat =>
              s1.rgCurrent.toInt + ((j : Int) + 1) * (s1.rgTarget.toInt - s1.rgCurrent.toInt).sign)

/-- 43_ramp.md R189: once a ramp started by RG.SETT has run to completion, the same RG.SETT again starts nothing, changes no
register, and no tick after it emits a velocity.
(The spec's own inference: R189 is marked "[derived: from rules R185, R190]".) -/
def Obligations.SettIsIdempotentAfterCompletion : Prop :=
  ∀ (s u : State) (v : Velocity) (n : Nat), RampInv s → s.rgConfigured = true →
    execAll (.rgSett v :: ticks n) s = .next u → u.tmrRun = false →
    u.rgCurrent = u.rgTarget ∧
    ∀ m, execAll (.rgSett v :: ticks m) u = .next { u with
      outputs := u.outputs ++ [.timerStop, .response .host .ok 0#64] ++ List.replicate m (.response .timer .ignored 0#64) }

/-- 43_ramp.md R183 (a) with 10_state.md R39: only RG.SETT writes the period; whatever else runs, a new configuration
included, a ramp keeps the period it was started with. -/
def Obligations.OnlySettChangesThePeriod : Prop :=
  ∀ (s t : State) (ops : List Instr), (∀ i ∈ ops, ∀ v, i ≠ .rgSett v) → execAll ops s = .next t →
    t.tmrCompare = s.tmrCompare

/-- 70_reset_and_hazards.md R253 (2) with 10_state.md R37: until an RG.CFG succeeds, every RG.SETT is refused, every tick is
ignored, and neither velocity nor the timer moves. -/
def Obligations.NothingMovesBeforeConfiguration : Prop :=
  ∀ (s t : State) (ops : List Instr), RampInv s → s.rgConfigured = false →
    (∀ i ∈ ops, ∀ accel decel mn mx be, i = .rgCfg accel decel mn mx be → accel = 0#16 ∨ decel = 0#16 ∨ mn.toInt > mx.toInt) →
    execAll ops s = .next t →
    t.rgConfigured = false ∧ t.tmrRun = false ∧ t.rgCurrent = s.rgCurrent ∧ t.rgTarget = s.rgTarget ∧
    (∀ v, exec (.rgSett v) t = .next { t with outputs := t.outputs ++ [.response .host .errNocfg 0#64] }) ∧
    exec .tick t = .next { t with outputs := t.outputs ++ [.response .timer .ignored 0#64] }
end

