-- ==== Sys2Proof/Laws/Memory.lean ====
section
/-!
SUPPORT. The laws of the frame buffer: what is read after a write, and that a write keeps the canonical form.
-/

namespace Sys2Proof.Machine

@[simp] theorem Memory.read_nil (a : Nat) : Memory.read [] a = 0#8 := rfl

theorem Memory.read_cons (c : Host.Cell) (m : Memory) (a : Nat) :
    Memory.read (c :: m) a = if c.1 = a then c.2 else Memory.read m a := by
  unfold Memory.read
  by_cases h : c.1 = a <;> simp [h]

theorem Memory.read_insert (c : Host.Cell) (m : Memory) (hc : ∀ d ∈ m, d.1 ≠ c.1) (a : Nat) :
    (Memory.insert c m).read a = if c.1 = a then c.2 else m.read a := by
  induction m with
  | nil => simp [Memory.insert, Memory.read_cons]
  | cons d rest ih =>
    have hd : d.1 ≠ c.1 := hc d (by simp)
    have ih := ih (fun e he => hc e (by simp [he]))
    unfold Memory.insert
    split
    · simp [Memory.read_cons]
    · rw [Memory.read_cons, ih, Memory.read_cons]
      split <;> split <;> simp_all

theorem Memory.read_filter (m : Memory) (k a : Nat) :
    Memory.read (m.filter (fun c => c.1 != k)) a = if a = k then 0#8 else m.read a := by
  induction m with
  | nil => simp
  | cons d rest ih =>
    rw [List.filter_cons]
    by_cases h : d.1 = k
    · simp only [h, bne_self_eq_false, Bool.false_eq_true, if_false, ih, Memory.read_cons]
      split <;> simp_all [eq_comm]
    · rw [if_pos (by simpa using h), Memory.read_cons, ih, Memory.read_cons]
      split <;> split <;> simp_all

/-- A read after a write: the byte written at its address, every other byte as before. -/
@[simp] theorem Memory.read_write (m : Memory) (a : BitVec 3) (v : Byte) (b : Nat) :
    (m.write a v).read b = if b = a.toNat then v else m.read b := by
  unfold Memory.write
  split
  · next h => rw [Memory.read_filter, h]
  · rw [Memory.read_insert _ _ (by intro d hd; simpa using (List.mem_filter.mp hd).2), Memory.read_filter]
    simp only [eq_comm (a := a.toNat)]
    split <;> simp_all

theorem Memory.mem_insert (c d : Host.Cell) (m : Memory) : d ∈ Memory.insert c m ↔ d = c ∨ d ∈ m := by
  induction m with
  | nil => simp [Memory.insert]
  | cons e rest ih =>
    unfold Memory.insert
    split
    · simp
    · simp only [List.mem_cons, ih]
      tauto

theorem Memory.insert_rising (c : Host.Cell) (m : Memory) (hc : ∀ d ∈ m, d.1 ≠ c.1)
    (hm : m.Pairwise (fun x y => x.1 < y.1)) : (Memory.insert c m).Pairwise (fun x y => x.1 < y.1) := by
  induction m with
  | nil => simp [Memory.insert]
  | cons d rest ih =>
    have hd : d.1 ≠ c.1 := hc d (by simp)
    rw [List.pairwise_cons] at hm
    unfold Memory.insert
    split
    · next h =>
      refine List.pairwise_cons.mpr ⟨?_, List.pairwise_cons.mpr hm⟩
      intro e he
      rcases List.mem_cons.mp he with rfl | he
      · exact h
      · exact lt_trans h (hm.1 e he)
    · next h =>
      refine List.pairwise_cons.mpr ⟨?_, ih (fun e he => hc e (by simp [he])) hm.2⟩
      intro e he
      rcases (Memory.mem_insert c e rest).mp he with rfl | he
      · omega
      · exact hm.1 e he

theorem Memory.nil_wf : Memory.wf [] := by simp [Memory.wf]

/-- Every memory operation that writes keeps the canonical form. -/
theorem Memory.write_wf (m : Memory) (a : BitVec 3) (v : Byte) (hm : m.wf) : (m.write a v).wf := by
  obtain ⟨hp, hb⟩ := hm
  have hp' := hp.filter (fun c => c.1 != a.toNat)
  have hne : ∀ d ∈ m.filter (fun c => c.1 != a.toNat), d.1 ≠ a.toNat := by
    intro d hd
    simpa using (List.mem_filter.mp hd).2
  unfold Memory.write
  split
  · exact ⟨hp', fun c hc => hb c (List.mem_filter.mp hc).1⟩
  · next h =>
    refine ⟨Memory.insert_rising _ _ hne hp', ?_⟩
    intro c hc
    rcases (Memory.mem_insert _ _ _).mp hc with rfl | hc
    · exact ⟨a.isLt, h⟩
    · exact hb c (List.mem_filter.mp hc).1

/-- The bytes of a range read as a whole. -/
theorem Memory.bytes_succ (m : Memory) (a n : Nat) : m.bytes a (n + 1) = m.bytes a n ++ [m.read (a + n)] := by
  simp [Memory.bytes, List.range_succ]

@[simp] theorem Memory.bytes_length (m : Memory) (a n : Nat) : (m.bytes a n).length = n := by
  simp [Memory.bytes]

/-- Two buffers that read alike on a range give the same bytes there. -/
theorem Memory.bytes_congr {m m' : Memory} {a n : Nat} (h : ∀ i, i < n → m.read (a + i) = m'.read (a + i)) :
    m.bytes a n = m'.bytes a n := by
  simp only [Memory.bytes, List.map_inj_left, List.mem_range]
  exact h

theorem littleEndian_lt (l : List Byte) : littleEndian l < 256 ^ l.length := by
  induction l with
  | nil => simp [littleEndian]
  | cons b rest ih =>
    have := b.isLt
    simp only [littleEndian, List.length_cons, pow_succ]
    omega

/-- The checksum received, as a number. -/
theorem State.frameRecv_toNat (s : State) :
    s.frameRecv.toNat = (s.fdBuf.read 6).toNat + 256 * (s.fdBuf.read 7).toNat := by
  have h6 := (s.fdBuf.read 6).isLt
  have h7 := (s.fdBuf.read 7).isLt
  simp only [State.frameRecv, Memory.readLE, Memory.bytes, Config.dataLen, List.range_succ, List.range_zero,
    List.nil_append, List.map_cons, List.map_nil, List.cons_append, littleEndian, BitVec.toNat_ofNat,
    Nat.add_zero, Nat.reduceAdd]
  omega

end Sys2Proof.Machine
end

