-- ==== Sys2Proof/Laws/State.lean ====
section
/-!
SUPPORT. What each update of the state does to each field, one lemma per field per update.
-/

namespace Sys2Proof.Machine

variable (s : State)

/-! ### setCrcAcc -/

@[simp] theorem State.setCrcAcc_params (c : Half) : (s.setCrcAcc c).params = s.params := rfl
@[simp] theorem State.setCrcAcc_crcAcc (c : Half) : (s.setCrcAcc c).crcAcc = c := rfl
@[simp] theorem State.setCrcAcc_fdState (c : Half) : (s.setCrcAcc c).fdState = s.fdState := rfl
@[simp] theorem State.setCrcAcc_fdCount (c : Half) : (s.setCrcAcc c).fdCount = s.fdCount := rfl
@[simp] theorem State.setCrcAcc_fdBuf (c : Half) : (s.setCrcAcc c).fdBuf = s.fdBuf := rfl
@[simp] theorem State.setCrcAcc_stQ (c : Half) : (s.setCrcAcc c).stQ = s.stQ := rfl
@[simp] theorem State.setCrcAcc_stOvf (c : Half) : (s.setCrcAcc c).stOvf = s.stOvf := rfl
@[simp] theorem State.setCrcAcc_rgCurrent (c : Half) : (s.setCrcAcc c).rgCurrent = s.rgCurrent := rfl
@[simp] theorem State.setCrcAcc_rgTarget (c : Half) : (s.setCrcAcc c).rgTarget = s.rgTarget := rfl
@[simp] theorem State.setCrcAcc_rgDir (c : Half) : (s.setCrcAcc c).rgDir = s.rgDir := rfl
@[simp] theorem State.setCrcAcc_rgMin (c : Half) : (s.setCrcAcc c).rgMin = s.rgMin := rfl
@[simp] theorem State.setCrcAcc_rgMax (c : Half) : (s.setCrcAcc c).rgMax = s.rgMax := rfl
@[simp] theorem State.setCrcAcc_rgBoundsEn (c : Half) : (s.setCrcAcc c).rgBoundsEn = s.rgBoundsEn := rfl
@[simp] theorem State.setCrcAcc_rgAccelCmp (c : Half) : (s.setCrcAcc c).rgAccelCmp = s.rgAccelCmp := rfl
@[simp] theorem State.setCrcAcc_rgDecelCmp (c : Half) : (s.setCrcAcc c).rgDecelCmp = s.rgDecelCmp := rfl
@[simp] theorem State.setCrcAcc_rgConfigured (c : Half) : (s.setCrcAcc c).rgConfigured = s.rgConfigured := rfl
@[simp] theorem State.setCrcAcc_tmrRun (c : Half) : (s.setCrcAcc c).tmrRun = s.tmrRun := rfl
@[simp] theorem State.setCrcAcc_tmrCompare (c : Half) : (s.setCrcAcc c).tmrCompare = s.tmrCompare := rfl
@[simp] theorem State.setCrcAcc_inputs (c : Half) : (s.setCrcAcc c).inputs = s.inputs := rfl
@[simp] theorem State.setCrcAcc_outputs (c : Half) : (s.setCrcAcc c).outputs = s.outputs := rfl

/-! ### setDecoder -/

@[simp] theorem State.setDecoder_params (st : FdState) (n : BitVec 3) : (s.setDecoder st n).params = s.params := rfl
@[simp] theorem State.setDecoder_crcAcc (st : FdState) (n : BitVec 3) : (s.setDecoder st n).crcAcc = s.crcAcc := rfl
@[simp] theorem State.setDecoder_fdState (st : FdState) (n : BitVec 3) : (s.setDecoder st n).fdState = st := rfl
@[simp] theorem State.setDecoder_fdCount (st : FdState) (n : BitVec 3) : (s.setDecoder st n).fdCount = n := rfl
@[simp] theorem State.setDecoder_fdBuf (st : FdState) (n : BitVec 3) : (s.setDecoder st n).fdBuf = s.fdBuf := rfl
@[simp] theorem State.setDecoder_stQ (st : FdState) (n : BitVec 3) : (s.setDecoder st n).stQ = s.stQ := rfl
@[simp] theorem State.setDecoder_stOvf (st : FdState) (n : BitVec 3) : (s.setDecoder st n).stOvf = s.stOvf := rfl
@[simp] theorem State.setDecoder_rgCurrent (st : FdState) (n : BitVec 3) : (s.setDecoder st n).rgCurrent = s.rgCurrent := rfl
@[simp] theorem State.setDecoder_rgTarget (st : FdState) (n : BitVec 3) : (s.setDecoder st n).rgTarget = s.rgTarget := rfl
@[simp] theorem State.setDecoder_rgDir (st : FdState) (n : BitVec 3) : (s.setDecoder st n).rgDir = s.rgDir := rfl
@[simp] theorem State.setDecoder_rgMin (st : FdState) (n : BitVec 3) : (s.setDecoder st n).rgMin = s.rgMin := rfl
@[simp] theorem State.setDecoder_rgMax (st : FdState) (n : BitVec 3) : (s.setDecoder st n).rgMax = s.rgMax := rfl
@[simp] theorem State.setDecoder_rgBoundsEn (st : FdState) (n : BitVec 3) : (s.setDecoder st n).rgBoundsEn = s.rgBoundsEn := rfl
@[simp] theorem State.setDecoder_rgAccelCmp (st : FdState) (n : BitVec 3) : (s.setDecoder st n).rgAccelCmp = s.rgAccelCmp := rfl
@[simp] theorem State.setDecoder_rgDecelCmp (st : FdState) (n : BitVec 3) : (s.setDecoder st n).rgDecelCmp = s.rgDecelCmp := rfl
@[simp] theorem State.setDecoder_rgConfigured (st : FdState) (n : BitVec 3) : (s.setDecoder st n).rgConfigured = s.rgConfigured := rfl
@[simp] theorem State.setDecoder_tmrRun (st : FdState) (n : BitVec 3) : (s.setDecoder st n).tmrRun = s.tmrRun := rfl
@[simp] theorem State.setDecoder_tmrCompare (st : FdState) (n : BitVec 3) : (s.setDecoder st n).tmrCompare = s.tmrCompare := rfl
@[simp] theorem State.setDecoder_inputs (st : FdState) (n : BitVec 3) : (s.setDecoder st n).inputs = s.inputs := rfl
@[simp] theorem State.setDecoder_outputs (st : FdState) (n : BitVec 3) : (s.setDecoder st n).outputs = s.outputs := rfl

/-! ### memWrite -/

@[simp] theorem State.memWrite_params (a : BitVec 3) (v : Byte) : (s.memWrite a v).params = s.params := rfl
@[simp] theorem State.memWrite_crcAcc (a : BitVec 3) (v : Byte) : (s.memWrite a v).crcAcc = s.crcAcc := rfl
@[simp] theorem State.memWrite_fdState (a : BitVec 3) (v : Byte) : (s.memWrite a v).fdState = s.fdState := rfl
@[simp] theorem State.memWrite_fdCount (a : BitVec 3) (v : Byte) : (s.memWrite a v).fdCount = s.fdCount := rfl
@[simp] theorem State.memWrite_fdBuf (a : BitVec 3) (v : Byte) : (s.memWrite a v).fdBuf = s.fdBuf.write a v := rfl
@[simp] theorem State.memWrite_stQ (a : BitVec 3) (v : Byte) : (s.memWrite a v).stQ = s.stQ := rfl
@[simp] theorem State.memWrite_stOvf (a : BitVec 3) (v : Byte) : (s.memWrite a v).stOvf = s.stOvf := rfl
@[simp] theorem State.memWrite_rgCurrent (a : BitVec 3) (v : Byte) : (s.memWrite a v).rgCurrent = s.rgCurrent := rfl
@[simp] theorem State.memWrite_rgTarget (a : BitVec 3) (v : Byte) : (s.memWrite a v).rgTarget = s.rgTarget := rfl
@[simp] theorem State.memWrite_rgDir (a : BitVec 3) (v : Byte) : (s.memWrite a v).rgDir = s.rgDir := rfl
@[simp] theorem State.memWrite_rgMin (a : BitVec 3) (v : Byte) : (s.memWrite a v).rgMin = s.rgMin := rfl
@[simp] theorem State.memWrite_rgMax (a : BitVec 3) (v : Byte) : (s.memWrite a v).rgMax = s.rgMax := rfl
@[simp] theorem State.memWrite_rgBoundsEn (a : BitVec 3) (v : Byte) : (s.memWrite a v).rgBoundsEn = s.rgBoundsEn := rfl
@[simp] theorem State.memWrite_rgAccelCmp (a : BitVec 3) (v : Byte) : (s.memWrite a v).rgAccelCmp = s.rgAccelCmp := rfl
@[simp] theorem State.memWrite_rgDecelCmp (a : BitVec 3) (v : Byte) : (s.memWrite a v).rgDecelCmp = s.rgDecelCmp := rfl
@[simp] theorem State.memWrite_rgConfigured (a : BitVec 3) (v : Byte) : (s.memWrite a v).rgConfigured = s.rgConfigured := rfl
@[simp] theorem State.memWrite_tmrRun (a : BitVec 3) (v : Byte) : (s.memWrite a v).tmrRun = s.tmrRun := rfl
@[simp] theorem State.memWrite_tmrCompare (a : BitVec 3) (v : Byte) : (s.memWrite a v).tmrCompare = s.tmrCompare := rfl
@[simp] theorem State.memWrite_inputs (a : BitVec 3) (v : Byte) : (s.memWrite a v).inputs = s.inputs := rfl
@[simp] theorem State.memWrite_outputs (a : BitVec 3) (v : Byte) : (s.memWrite a v).outputs = s.outputs := rfl

/-! ### setStQ -/

@[simp] theorem State.setStQ_params (q : List Command) : (s.setStQ q).params = s.params := rfl
@[simp] theorem State.setStQ_crcAcc (q : List Command) : (s.setStQ q).crcAcc = s.crcAcc := rfl
@[simp] theorem State.setStQ_fdState (q : List Command) : (s.setStQ q).fdState = s.fdState := rfl
@[simp] theorem State.setStQ_fdCount (q : List Command) : (s.setStQ q).fdCount = s.fdCount := rfl
@[simp] theorem State.setStQ_fdBuf (q : List Command) : (s.setStQ q).fdBuf = s.fdBuf := rfl
@[simp] theorem State.setStQ_stQ (q : List Command) : (s.setStQ q).stQ = q := rfl
@[simp] theorem State.setStQ_stOvf (q : List Command) : (s.setStQ q).stOvf = s.stOvf := rfl
@[simp] theorem State.setStQ_rgCurrent (q : List Command) : (s.setStQ q).rgCurrent = s.rgCurrent := rfl
@[simp] theorem State.setStQ_rgTarget (q : List Command) : (s.setStQ q).rgTarget = s.rgTarget := rfl
@[simp] theorem State.setStQ_rgDir (q : List Command) : (s.setStQ q).rgDir = s.rgDir := rfl
@[simp] theorem State.setStQ_rgMin (q : List Command) : (s.setStQ q).rgMin = s.rgMin := rfl
@[simp] theorem State.setStQ_rgMax (q : List Command) : (s.setStQ q).rgMax = s.rgMax := rfl
@[simp] theorem State.setStQ_rgBoundsEn (q : List Command) : (s.setStQ q).rgBoundsEn = s.rgBoundsEn := rfl
@[simp] theorem State.setStQ_rgAccelCmp (q : List Command) : (s.setStQ q).rgAccelCmp = s.rgAccelCmp := rfl
@[simp] theorem State.setStQ_rgDecelCmp (q : List Command) : (s.setStQ q).rgDecelCmp = s.rgDecelCmp := rfl
@[simp] theorem State.setStQ_rgConfigured (q : List Command) : (s.setStQ q).rgConfigured = s.rgConfigured := rfl
@[simp] theorem State.setStQ_tmrRun (q : List Command) : (s.setStQ q).tmrRun = s.tmrRun := rfl
@[simp] theorem State.setStQ_tmrCompare (q : List Command) : (s.setStQ q).tmrCompare = s.tmrCompare := rfl
@[simp] theorem State.setStQ_inputs (q : List Command) : (s.setStQ q).inputs = s.inputs := rfl
@[simp] theorem State.setStQ_outputs (q : List Command) : (s.setStQ q).outputs = s.outputs := rfl

/-! ### setStOvf -/

@[simp] theorem State.setStOvf_params (n : Half) : (s.setStOvf n).params = s.params := rfl
@[simp] theorem State.setStOvf_crcAcc (n : Half) : (s.setStOvf n).crcAcc = s.crcAcc := rfl
@[simp] theorem State.setStOvf_fdState (n : Half) : (s.setStOvf n).fdState = s.fdState := rfl
@[simp] theorem State.setStOvf_fdCount (n : Half) : (s.setStOvf n).fdCount = s.fdCount := rfl
@[simp] theorem State.setStOvf_fdBuf (n : Half) : (s.setStOvf n).fdBuf = s.fdBuf := rfl
@[simp] theorem State.setStOvf_stQ (n : Half) : (s.setStOvf n).stQ = s.stQ := rfl
@[simp] theorem State.setStOvf_stOvf (n : Half) : (s.setStOvf n).stOvf = n := rfl
@[simp] theorem State.setStOvf_rgCurrent (n : Half) : (s.setStOvf n).rgCurrent = s.rgCurrent := rfl
@[simp] theorem State.setStOvf_rgTarget (n : Half) : (s.setStOvf n).rgTarget = s.rgTarget := rfl
@[simp] theorem State.setStOvf_rgDir (n : Half) : (s.setStOvf n).rgDir = s.rgDir := rfl
@[simp] theorem State.setStOvf_rgMin (n : Half) : (s.setStOvf n).rgMin = s.rgMin := rfl
@[simp] theorem State.setStOvf_rgMax (n : Half) : (s.setStOvf n).rgMax = s.rgMax := rfl
@[simp] theorem State.setStOvf_rgBoundsEn (n : Half) : (s.setStOvf n).rgBoundsEn = s.rgBoundsEn := rfl
@[simp] theorem State.setStOvf_rgAccelCmp (n : Half) : (s.setStOvf n).rgAccelCmp = s.rgAccelCmp := rfl
@[simp] theorem State.setStOvf_rgDecelCmp (n : Half) : (s.setStOvf n).rgDecelCmp = s.rgDecelCmp := rfl
@[simp] theorem State.setStOvf_rgConfigured (n : Half) : (s.setStOvf n).rgConfigured = s.rgConfigured := rfl
@[simp] theorem State.setStOvf_tmrRun (n : Half) : (s.setStOvf n).tmrRun = s.tmrRun := rfl
@[simp] theorem State.setStOvf_tmrCompare (n : Half) : (s.setStOvf n).tmrCompare = s.tmrCompare := rfl
@[simp] theorem State.setStOvf_inputs (n : Half) : (s.setStOvf n).inputs = s.inputs := rfl
@[simp] theorem State.setStOvf_outputs (n : Half) : (s.setStOvf n).outputs = s.outputs := rfl

/-! ### setCurrent -/

@[simp] theorem State.setCurrent_params (v : Velocity) : (s.setCurrent v).params = s.params := rfl
@[simp] theorem State.setCurrent_crcAcc (v : Velocity) : (s.setCurrent v).crcAcc = s.crcAcc := rfl
@[simp] theorem State.setCurrent_fdState (v : Velocity) : (s.setCurrent v).fdState = s.fdState := rfl
@[simp] theorem State.setCurrent_fdCount (v : Velocity) : (s.setCurrent v).fdCount = s.fdCount := rfl
@[simp] theorem State.setCurrent_fdBuf (v : Velocity) : (s.setCurrent v).fdBuf = s.fdBuf := rfl
@[simp] theorem State.setCurrent_stQ (v : Velocity) : (s.setCurrent v).stQ = s.stQ := rfl
@[simp] theorem State.setCurrent_stOvf (v : Velocity) : (s.setCurrent v).stOvf = s.stOvf := rfl
@[simp] theorem State.setCurrent_rgCurrent (v : Velocity) : (s.setCurrent v).rgCurrent = v := rfl
@[simp] theorem State.setCurrent_rgTarget (v : Velocity) : (s.setCurrent v).rgTarget = s.rgTarget := rfl
@[simp] theorem State.setCurrent_rgDir (v : Velocity) : (s.setCurrent v).rgDir = s.rgDir := rfl
@[simp] theorem State.setCurrent_rgMin (v : Velocity) : (s.setCurrent v).rgMin = s.rgMin := rfl
@[simp] theorem State.setCurrent_rgMax (v : Velocity) : (s.setCurrent v).rgMax = s.rgMax := rfl
@[simp] theorem State.setCurrent_rgBoundsEn (v : Velocity) : (s.setCurrent v).rgBoundsEn = s.rgBoundsEn := rfl
@[simp] theorem State.setCurrent_rgAccelCmp (v : Velocity) : (s.setCurrent v).rgAccelCmp = s.rgAccelCmp := rfl
@[simp] theorem State.setCurrent_rgDecelCmp (v : Velocity) : (s.setCurrent v).rgDecelCmp = s.rgDecelCmp := rfl
@[simp] theorem State.setCurrent_rgConfigured (v : Velocity) : (s.setCurrent v).rgConfigured = s.rgConfigured := rfl
@[simp] theorem State.setCurrent_tmrRun (v : Velocity) : (s.setCurrent v).tmrRun = s.tmrRun := rfl
@[simp] theorem State.setCurrent_tmrCompare (v : Velocity) : (s.setCurrent v).tmrCompare = s.tmrCompare := rfl
@[simp] theorem State.setCurrent_inputs (v : Velocity) : (s.setCurrent v).inputs = s.inputs := rfl
@[simp] theorem State.setCurrent_outputs (v : Velocity) : (s.setCurrent v).outputs = s.outputs := rfl

/-! ### setTarget -/

@[simp] theorem State.setTarget_params (v : Velocity) : (s.setTarget v).params = s.params := rfl
@[simp] theorem State.setTarget_crcAcc (v : Velocity) : (s.setTarget v).crcAcc = s.crcAcc := rfl
@[simp] theorem State.setTarget_fdState (v : Velocity) : (s.setTarget v).fdState = s.fdState := rfl
@[simp] theorem State.setTarget_fdCount (v : Velocity) : (s.setTarget v).fdCount = s.fdCount := rfl
@[simp] theorem State.setTarget_fdBuf (v : Velocity) : (s.setTarget v).fdBuf = s.fdBuf := rfl
@[simp] theorem State.setTarget_stQ (v : Velocity) : (s.setTarget v).stQ = s.stQ := rfl
@[simp] theorem State.setTarget_stOvf (v : Velocity) : (s.setTarget v).stOvf = s.stOvf := rfl
@[simp] theorem State.setTarget_rgCurrent (v : Velocity) : (s.setTarget v).rgCurrent = s.rgCurrent := rfl
@[simp] theorem State.setTarget_rgTarget (v : Velocity) : (s.setTarget v).rgTarget = v := rfl
@[simp] theorem State.setTarget_rgDir (v : Velocity) : (s.setTarget v).rgDir = s.rgDir := rfl
@[simp] theorem State.setTarget_rgMin (v : Velocity) : (s.setTarget v).rgMin = s.rgMin := rfl
@[simp] theorem State.setTarget_rgMax (v : Velocity) : (s.setTarget v).rgMax = s.rgMax := rfl
@[simp] theorem State.setTarget_rgBoundsEn (v : Velocity) : (s.setTarget v).rgBoundsEn = s.rgBoundsEn := rfl
@[simp] theorem State.setTarget_rgAccelCmp (v : Velocity) : (s.setTarget v).rgAccelCmp = s.rgAccelCmp := rfl
@[simp] theorem State.setTarget_rgDecelCmp (v : Velocity) : (s.setTarget v).rgDecelCmp = s.rgDecelCmp := rfl
@[simp] theorem State.setTarget_rgConfigured (v : Velocity) : (s.setTarget v).rgConfigured = s.rgConfigured := rfl
@[simp] theorem State.setTarget_tmrRun (v : Velocity) : (s.setTarget v).tmrRun = s.tmrRun := rfl
@[simp] theorem State.setTarget_tmrCompare (v : Velocity) : (s.setTarget v).tmrCompare = s.tmrCompare := rfl
@[simp] theorem State.setTarget_inputs (v : Velocity) : (s.setTarget v).inputs = s.inputs := rfl
@[simp] theorem State.setTarget_outputs (v : Velocity) : (s.setTarget v).outputs = s.outputs := rfl

/-! ### setDir -/

@[simp] theorem State.setDir_params (d : Direction) : (s.setDir d).params = s.params := rfl
@[simp] theorem State.setDir_crcAcc (d : Direction) : (s.setDir d).crcAcc = s.crcAcc := rfl
@[simp] theorem State.setDir_fdState (d : Direction) : (s.setDir d).fdState = s.fdState := rfl
@[simp] theorem State.setDir_fdCount (d : Direction) : (s.setDir d).fdCount = s.fdCount := rfl
@[simp] theorem State.setDir_fdBuf (d : Direction) : (s.setDir d).fdBuf = s.fdBuf := rfl
@[simp] theorem State.setDir_stQ (d : Direction) : (s.setDir d).stQ = s.stQ := rfl
@[simp] theorem State.setDir_stOvf (d : Direction) : (s.setDir d).stOvf = s.stOvf := rfl
@[simp] theorem State.setDir_rgCurrent (d : Direction) : (s.setDir d).rgCurrent = s.rgCurrent := rfl
@[simp] theorem State.setDir_rgTarget (d : Direction) : (s.setDir d).rgTarget = s.rgTarget := rfl
@[simp] theorem State.setDir_rgDir (d : Direction) : (s.setDir d).rgDir = d := rfl
@[simp] theorem State.setDir_rgMin (d : Direction) : (s.setDir d).rgMin = s.rgMin := rfl
@[simp] theorem State.setDir_rgMax (d : Direction) : (s.setDir d).rgMax = s.rgMax := rfl
@[simp] theorem State.setDir_rgBoundsEn (d : Direction) : (s.setDir d).rgBoundsEn = s.rgBoundsEn := rfl
@[simp] theorem State.setDir_rgAccelCmp (d : Direction) : (s.setDir d).rgAccelCmp = s.rgAccelCmp := rfl
@[simp] theorem State.setDir_rgDecelCmp (d : Direction) : (s.setDir d).rgDecelCmp = s.rgDecelCmp := rfl
@[simp] theorem State.setDir_rgConfigured (d : Direction) : (s.setDir d).rgConfigured = s.rgConfigured := rfl
@[simp] theorem State.setDir_tmrRun (d : Direction) : (s.setDir d).tmrRun = s.tmrRun := rfl
@[simp] theorem State.setDir_tmrCompare (d : Direction) : (s.setDir d).tmrCompare = s.tmrCompare := rfl
@[simp] theorem State.setDir_inputs (d : Direction) : (s.setDir d).inputs = s.inputs := rfl
@[simp] theorem State.setDir_outputs (d : Direction) : (s.setDir d).outputs = s.outputs := rfl

/-! ### setConfig -/

@[simp] theorem State.setConfig_params (ac dc : Compare) (mn mx : Velocity) (be : Bool) : (s.setConfig ac dc mn mx be).params = s.params := rfl
@[simp] theorem State.setConfig_crcAcc (ac dc : Compare) (mn mx : Velocity) (be : Bool) : (s.setConfig ac dc mn mx be).crcAcc = s.crcAcc := rfl
@[simp] theorem State.setConfig_fdState (ac dc : Compare) (mn mx : Velocity) (be : Bool) : (s.setConfig ac dc mn mx be).fdState = s.fdState := rfl
@[simp] theorem State.setConfig_fdCount (ac dc : Compare) (mn mx : Velocity) (be : Bool) : (s.setConfig ac dc mn mx be).fdCount = s.fdCount := rfl
@[simp] theorem State.setConfig_fdBuf (ac dc : Compare) (mn mx : Velocity) (be : Bool) : (s.setConfig ac dc mn mx be).fdBuf = s.fdBuf := rfl
@[simp] theorem State.setConfig_stQ (ac dc : Compare) (mn mx : Velocity) (be : Bool) : (s.setConfig ac dc mn mx be).stQ = s.stQ := rfl
@[simp] theorem State.setConfig_stOvf (ac dc : Compare) (mn mx : Velocity) (be : Bool) : (s.setConfig ac dc mn mx be).stOvf = s.stOvf := rfl
@[simp] theorem State.setConfig_rgCurrent (ac dc : Compare) (mn mx : Velocity) (be : Bool) : (s.setConfig ac dc mn mx be).rgCurrent = s.rgCurrent := rfl
@[simp] theorem State.setConfig_rgTarget (ac dc : Compare) (mn mx : Velocity) (be : Bool) : (s.setConfig ac dc mn mx be).rgTarget = s.rgTarget := rfl
@[simp] theorem State.setConfig_rgDir (ac dc : Compare) (mn mx : Velocity) (be : Bool) : (s.setConfig ac dc mn mx be).rgDir = s.rgDir := rfl
@[simp] theorem State.setConfig_rgMin (ac dc : Compare) (mn mx : Velocity) (be : Bool) : (s.setConfig ac dc mn mx be).rgMin = mn := rfl
@[simp] theorem State.setConfig_rgMax (ac dc : Compare) (mn mx : Velocity) (be : Bool) : (s.setConfig ac dc mn mx be).rgMax = mx := rfl
@[simp] theorem State.setConfig_rgBoundsEn (ac dc : Compare) (mn mx : Velocity) (be : Bool) : (s.setConfig ac dc mn mx be).rgBoundsEn = be := rfl
@[simp] theorem State.setConfig_rgAccelCmp (ac dc : Compare) (mn mx : Velocity) (be : Bool) : (s.setConfig ac dc mn mx be).rgAccelCmp = ac := rfl
@[simp] theorem State.setConfig_rgDecelCmp (ac dc : Compare) (mn mx : Velocity) (be : Bool) : (s.setConfig ac dc mn mx be).rgDecelCmp = dc := rfl
@[simp] theorem State.setConfig_rgConfigured (ac dc : Compare) (mn mx : Velocity) (be : Bool) : (s.setConfig ac dc mn mx be).rgConfigured = true := rfl
@[simp] theorem State.setConfig_tmrRun (ac dc : Compare) (mn mx : Velocity) (be : Bool) : (s.setConfig ac dc mn mx be).tmrRun = s.tmrRun := rfl
@[simp] theorem State.setConfig_tmrCompare (ac dc : Compare) (mn mx : Velocity) (be : Bool) : (s.setConfig ac dc mn mx be).tmrCompare = s.tmrCompare := rfl
@[simp] theorem State.setConfig_inputs (ac dc : Compare) (mn mx : Velocity) (be : Bool) : (s.setConfig ac dc mn mx be).inputs = s.inputs := rfl
@[simp] theorem State.setConfig_outputs (ac dc : Compare) (mn mx : Velocity) (be : Bool) : (s.setConfig ac dc mn mx be).outputs = s.outputs := rfl

/-! ### emit -/

@[simp] theorem State.emit_params (e : OutEvent) : (s.emit e).params = s.params := rfl
@[simp] theorem State.emit_crcAcc (e : OutEvent) : (s.emit e).crcAcc = s.crcAcc := rfl
@[simp] theorem State.emit_fdState (e : OutEvent) : (s.emit e).fdState = s.fdState := rfl
@[simp] theorem State.emit_fdCount (e : OutEvent) : (s.emit e).fdCount = s.fdCount := rfl
@[simp] theorem State.emit_fdBuf (e : OutEvent) : (s.emit e).fdBuf = s.fdBuf := rfl
@[simp] theorem State.emit_stQ (e : OutEvent) : (s.emit e).stQ = s.stQ := rfl
@[simp] theorem State.emit_stOvf (e : OutEvent) : (s.emit e).stOvf = s.stOvf := rfl
@[simp] theorem State.emit_rgCurrent (e : OutEvent) : (s.emit e).rgCurrent = s.rgCurrent := rfl
@[simp] theorem State.emit_rgTarget (e : OutEvent) : (s.emit e).rgTarget = s.rgTarget := rfl
@[simp] theorem State.emit_rgDir (e : OutEvent) : (s.emit e).rgDir = s.rgDir := rfl
@[simp] theorem State.emit_rgMin (e : OutEvent) : (s.emit e).rgMin = s.rgMin := rfl
@[simp] theorem State.emit_rgMax (e : OutEvent) : (s.emit e).rgMax = s.rgMax := rfl
@[simp] theorem State.emit_rgBoundsEn (e : OutEvent) : (s.emit e).rgBoundsEn = s.rgBoundsEn := rfl
@[simp] theorem State.emit_rgAccelCmp (e : OutEvent) : (s.emit e).rgAccelCmp = s.rgAccelCmp := rfl
@[simp] theorem State.emit_rgDecelCmp (e : OutEvent) : (s.emit e).rgDecelCmp = s.rgDecelCmp := rfl
@[simp] theorem State.emit_rgConfigured (e : OutEvent) : (s.emit e).rgConfigured = s.rgConfigured := rfl
@[simp] theorem State.emit_tmrRun (e : OutEvent) : (s.emit e).tmrRun = s.tmrRun := rfl
@[simp] theorem State.emit_tmrCompare (e : OutEvent) : (s.emit e).tmrCompare = s.tmrCompare := rfl
@[simp] theorem State.emit_inputs (e : OutEvent) : (s.emit e).inputs = s.inputs := rfl
@[simp] theorem State.emit_outputs (e : OutEvent) : (s.emit e).outputs = s.outputs ++ [e] := rfl

/-! ### setPeriod -/

@[simp] theorem State.setPeriod_params (c : Compare) : (s.setPeriod c).params = s.params := rfl
@[simp] theorem State.setPeriod_crcAcc (c : Compare) : (s.setPeriod c).crcAcc = s.crcAcc := rfl
@[simp] theorem State.setPeriod_fdState (c : Compare) : (s.setPeriod c).fdState = s.fdState := rfl
@[simp] theorem State.setPeriod_fdCount (c : Compare) : (s.setPeriod c).fdCount = s.fdCount := rfl
@[simp] theorem State.setPeriod_fdBuf (c : Compare) : (s.setPeriod c).fdBuf = s.fdBuf := rfl
@[simp] theorem State.setPeriod_stQ (c : Compare) : (s.setPeriod c).stQ = s.stQ := rfl
@[simp] theorem State.setPeriod_stOvf (c : Compare) : (s.setPeriod c).stOvf = s.stOvf := rfl
@[simp] theorem State.setPeriod_rgCurrent (c : Compare) : (s.setPeriod c).rgCurrent = s.rgCurrent := rfl
@[simp] theorem State.setPeriod_rgTarget (c : Compare) : (s.setPeriod c).rgTarget = s.rgTarget := rfl
@[simp] theorem State.setPeriod_rgDir (c : Compare) : (s.setPeriod c).rgDir = s.rgDir := rfl
@[simp] theorem State.setPeriod_rgMin (c : Compare) : (s.setPeriod c).rgMin = s.rgMin := rfl
@[simp] theorem State.setPeriod_rgMax (c : Compare) : (s.setPeriod c).rgMax = s.rgMax := rfl
@[simp] theorem State.setPeriod_rgBoundsEn (c : Compare) : (s.setPeriod c).rgBoundsEn = s.rgBoundsEn := rfl
@[simp] theorem State.setPeriod_rgAccelCmp (c : Compare) : (s.setPeriod c).rgAccelCmp = s.rgAccelCmp := rfl
@[simp] theorem State.setPeriod_rgDecelCmp (c : Compare) : (s.setPeriod c).rgDecelCmp = s.rgDecelCmp := rfl
@[simp] theorem State.setPeriod_rgConfigured (c : Compare) : (s.setPeriod c).rgConfigured = s.rgConfigured := rfl
@[simp] theorem State.setPeriod_tmrRun (c : Compare) : (s.setPeriod c).tmrRun = s.tmrRun := rfl
@[simp] theorem State.setPeriod_tmrCompare (c : Compare) : (s.setPeriod c).tmrCompare = c := rfl
@[simp] theorem State.setPeriod_inputs (c : Compare) : (s.setPeriod c).inputs = s.inputs := rfl
@[simp] theorem State.setPeriod_outputs (c : Compare) : (s.setPeriod c).outputs = s.outputs ++ [.setPeriod c] := rfl

/-! ### timerStart -/

@[simp] theorem State.timerStart_params : (s.timerStart).params = s.params := rfl
@[simp] theorem State.timerStart_crcAcc : (s.timerStart).crcAcc = s.crcAcc := rfl
@[simp] theorem State.timerStart_fdState : (s.timerStart).fdState = s.fdState := rfl
@[simp] theorem State.timerStart_fdCount : (s.timerStart).fdCount = s.fdCount := rfl
@[simp] theorem State.timerStart_fdBuf : (s.timerStart).fdBuf = s.fdBuf := rfl
@[simp] theorem State.timerStart_stQ : (s.timerStart).stQ = s.stQ := rfl
@[simp] theorem State.timerStart_stOvf : (s.timerStart).stOvf = s.stOvf := rfl
@[simp] theorem State.timerStart_rgCurrent : (s.timerStart).rgCurrent = s.rgCurrent := rfl
@[simp] theorem State.timerStart_rgTarget : (s.timerStart).rgTarget = s.rgTarget := rfl
@[simp] theorem State.timerStart_rgDir : (s.timerStart).rgDir = s.rgDir := rfl
@[simp] theorem State.timerStart_rgMin : (s.timerStart).rgMin = s.rgMin := rfl
@[simp] theorem State.timerStart_rgMax : (s.timerStart).rgMax = s.rgMax := rfl
@[simp] theorem State.timerStart_rgBoundsEn : (s.timerStart).rgBoundsEn = s.rgBoundsEn := rfl
@[simp] theorem State.timerStart_rgAccelCmp : (s.timerStart).rgAccelCmp = s.rgAccelCmp := rfl
@[simp] theorem State.timerStart_rgDecelCmp : (s.timerStart).rgDecelCmp = s.rgDecelCmp := rfl
@[simp] theorem State.timerStart_rgConfigured : (s.timerStart).rgConfigured = s.rgConfigured := rfl
@[simp] theorem State.timerStart_tmrRun : (s.timerStart).tmrRun = true := rfl
@[simp] theorem State.timerStart_tmrCompare : (s.timerStart).tmrCompare = s.tmrCompare := rfl
@[simp] theorem State.timerStart_inputs : (s.timerStart).inputs = s.inputs := rfl
@[simp] theorem State.timerStart_outputs : (s.timerStart).outputs = s.outputs ++ [.timerStart] := rfl

/-! ### timerStop -/

@[simp] theorem State.timerStop_params : (s.timerStop).params = s.params := rfl
@[simp] theorem State.timerStop_crcAcc : (s.timerStop).crcAcc = s.crcAcc := rfl
@[simp] theorem State.timerStop_fdState : (s.timerStop).fdState = s.fdState := rfl
@[simp] theorem State.timerStop_fdCount : (s.timerStop).fdCount = s.fdCount := rfl
@[simp] theorem State.timerStop_fdBuf : (s.timerStop).fdBuf = s.fdBuf := rfl
@[simp] theorem State.timerStop_stQ : (s.timerStop).stQ = s.stQ := rfl
@[simp] theorem State.timerStop_stOvf : (s.timerStop).stOvf = s.stOvf := rfl
@[simp] theorem State.timerStop_rgCurrent : (s.timerStop).rgCurrent = s.rgCurrent := rfl
@[simp] theorem State.timerStop_rgTarget : (s.timerStop).rgTarget = s.rgTarget := rfl
@[simp] theorem State.timerStop_rgDir : (s.timerStop).rgDir = s.rgDir := rfl
@[simp] theorem State.timerStop_rgMin : (s.timerStop).rgMin = s.rgMin := rfl
@[simp] theorem State.timerStop_rgMax : (s.timerStop).rgMax = s.rgMax := rfl
@[simp] theorem State.timerStop_rgBoundsEn : (s.timerStop).rgBoundsEn = s.rgBoundsEn := rfl
@[simp] theorem State.timerStop_rgAccelCmp : (s.timerStop).rgAccelCmp = s.rgAccelCmp := rfl
@[simp] theorem State.timerStop_rgDecelCmp : (s.timerStop).rgDecelCmp = s.rgDecelCmp := rfl
@[simp] theorem State.timerStop_rgConfigured : (s.timerStop).rgConfigured = s.rgConfigured := rfl
@[simp] theorem State.timerStop_tmrRun : (s.timerStop).tmrRun = false := rfl
@[simp] theorem State.timerStop_tmrCompare : (s.timerStop).tmrCompare = s.tmrCompare := rfl
@[simp] theorem State.timerStop_inputs : (s.timerStop).inputs = s.inputs := rfl
@[simp] theorem State.timerStop_outputs : (s.timerStop).outputs = s.outputs ++ [.timerStop] := rfl

/-! ### setInputs -/

@[simp] theorem State.setInputs_params (i : List Arrival) : (s.setInputs i).params = s.params := rfl
@[simp] theorem State.setInputs_crcAcc (i : List Arrival) : (s.setInputs i).crcAcc = s.crcAcc := rfl
@[simp] theorem State.setInputs_fdState (i : List Arrival) : (s.setInputs i).fdState = s.fdState := rfl
@[simp] theorem State.setInputs_fdCount (i : List Arrival) : (s.setInputs i).fdCount = s.fdCount := rfl
@[simp] theorem State.setInputs_fdBuf (i : List Arrival) : (s.setInputs i).fdBuf = s.fdBuf := rfl
@[simp] theorem State.setInputs_stQ (i : List Arrival) : (s.setInputs i).stQ = s.stQ := rfl
@[simp] theorem State.setInputs_stOvf (i : List Arrival) : (s.setInputs i).stOvf = s.stOvf := rfl
@[simp] theorem State.setInputs_rgCurrent (i : List Arrival) : (s.setInputs i).rgCurrent = s.rgCurrent := rfl
@[simp] theorem State.setInputs_rgTarget (i : List Arrival) : (s.setInputs i).rgTarget = s.rgTarget := rfl
@[simp] theorem State.setInputs_rgDir (i : List Arrival) : (s.setInputs i).rgDir = s.rgDir := rfl
@[simp] theorem State.setInputs_rgMin (i : List Arrival) : (s.setInputs i).rgMin = s.rgMin := rfl
@[simp] theorem State.setInputs_rgMax (i : List Arrival) : (s.setInputs i).rgMax = s.rgMax := rfl
@[simp] theorem State.setInputs_rgBoundsEn (i : List Arrival) : (s.setInputs i).rgBoundsEn = s.rgBoundsEn := rfl
@[simp] theorem State.setInputs_rgAccelCmp (i : List Arrival) : (s.setInputs i).rgAccelCmp = s.rgAccelCmp := rfl
@[simp] theorem State.setInputs_rgDecelCmp (i : List Arrival) : (s.setInputs i).rgDecelCmp = s.rgDecelCmp := rfl
@[simp] theorem State.setInputs_rgConfigured (i : List Arrival) : (s.setInputs i).rgConfigured = s.rgConfigured := rfl
@[simp] theorem State.setInputs_tmrRun (i : List Arrival) : (s.setInputs i).tmrRun = s.tmrRun := rfl
@[simp] theorem State.setInputs_tmrCompare (i : List Arrival) : (s.setInputs i).tmrCompare = s.tmrCompare := rfl
@[simp] theorem State.setInputs_inputs (i : List Arrival) : (s.setInputs i).inputs = i := rfl
@[simp] theorem State.setInputs_outputs (i : List Arrival) : (s.setInputs i).outputs = s.outputs := rfl

/-! ### clearOutputs -/

@[simp] theorem State.clearOutputs_params : (s.clearOutputs).params = s.params := rfl
@[simp] theorem State.clearOutputs_crcAcc : (s.clearOutputs).crcAcc = s.crcAcc := rfl
@[simp] theorem State.clearOutputs_fdState : (s.clearOutputs).fdState = s.fdState := rfl
@[simp] theorem State.clearOutputs_fdCount : (s.clearOutputs).fdCount = s.fdCount := rfl
@[simp] theorem State.clearOutputs_fdBuf : (s.clearOutputs).fdBuf = s.fdBuf := rfl
@[simp] theorem State.clearOutputs_stQ : (s.clearOutputs).stQ = s.stQ := rfl
@[simp] theorem State.clearOutputs_stOvf : (s.clearOutputs).stOvf = s.stOvf := rfl
@[simp] theorem State.clearOutputs_rgCurrent : (s.clearOutputs).rgCurrent = s.rgCurrent := rfl
@[simp] theorem State.clearOutputs_rgTarget : (s.clearOutputs).rgTarget = s.rgTarget := rfl
@[simp] theorem State.clearOutputs_rgDir : (s.clearOutputs).rgDir = s.rgDir := rfl
@[simp] theorem State.clearOutputs_rgMin : (s.clearOutputs).rgMin = s.rgMin := rfl
@[simp] theorem State.clearOutputs_rgMax : (s.clearOutputs).rgMax = s.rgMax := rfl
@[simp] theorem State.clearOutputs_rgBoundsEn : (s.clearOutputs).rgBoundsEn = s.rgBoundsEn := rfl
@[simp] theorem State.clearOutputs_rgAccelCmp : (s.clearOutputs).rgAccelCmp = s.rgAccelCmp := rfl
@[simp] theorem State.clearOutputs_rgDecelCmp : (s.clearOutputs).rgDecelCmp = s.rgDecelCmp := rfl
@[simp] theorem State.clearOutputs_rgConfigured : (s.clearOutputs).rgConfigured = s.rgConfigured := rfl
@[simp] theorem State.clearOutputs_tmrRun : (s.clearOutputs).tmrRun = s.tmrRun := rfl
@[simp] theorem State.clearOutputs_tmrCompare : (s.clearOutputs).tmrCompare = s.tmrCompare := rfl
@[simp] theorem State.clearOutputs_inputs : (s.clearOutputs).inputs = s.inputs := rfl
@[simp] theorem State.clearOutputs_outputs : (s.clearOutputs).outputs = [] := rfl

/-! ### The responses and output events are `emit` -/

@[simp] theorem State.respond_eq_emit (p : Port) (st : Status) (d : BitVec 64) :
    s.respond p st d = s.emit (.response p st d) := rfl
@[simp] theorem State.refuse_eq_emit (p : Port) (st : Status) : s.refuse p st = s.emit (.response p st 0#64) := rfl
@[simp] theorem State.emitAck_eq_emit (b : Byte) : s.emitAck b = s.emit (.ack b) := rfl
@[simp] theorem State.emitVel_eq_emit (v : Velocity) : s.emitVel v = s.emit (.vel v) := rfl

/-! ### resetRegisters -/

@[simp] theorem State.resetRegisters_params : s.resetRegisters.params = s.params := rfl
@[simp] theorem State.resetRegisters_inputs : s.resetRegisters.inputs = s.inputs := rfl
@[simp] theorem State.resetRegisters_outputs : s.resetRegisters.outputs = [] := rfl

end Sys2Proof.Machine
end

