-- ==== Sys2Proof/Laws/Ops.lean ====
section
/-!
SUPPORT. One lemma per shared operation and per meaning: everything it can do. Later proofs cite these and do not unfold.
-/

namespace Sys2Proof.Machine

/-! ## Sequencing -/

@[simp] theorem andThen_next (s : State) (k : State → Result) : andThen (.next s) k = k s := rfl

theorem andThen_eq_next {r : Result} {k : State → Result} {t : State} (h : andThen r k = .next t) :
    ∃ s, r = .next s ∧ k s = .next t := by
  cases r with
  | next s => exact ⟨s, rfl, h⟩
  | fault e => cases e
  | refused e => cases h

@[simp] theorem execAll_nil (s : State) : execAll [] s = .next s := rfl

@[simp] theorem execAll_cons (i : Instr) (rest : List Instr) (s : State) :
    execAll (i :: rest) s = andThen (exec i s) (execAll rest) := rfl

/-! ## Shared operations -/

/-- The clamp answers one of its three arguments. -/
theorem clamp_cases (v lo hi : Velocity) :
    (v.toInt < lo.toInt ∧ clamp v lo hi = lo) ∨
    (¬ v.toInt < lo.toInt ∧ v.toInt > hi.toInt ∧ clamp v lo hi = hi) ∨
    (¬ v.toInt < lo.toInt ∧ ¬ v.toInt > hi.toInt ∧ clamp v lo hi = v) := by
  unfold clamp asS16
  split
  · exact .inl ⟨‹_›, rfl⟩
  · split
    · exact .inr (.inl ⟨‹_›, ‹_›, rfl⟩)
    · exact .inr (.inr ⟨‹_›, ‹_›, rfl⟩)

/-- A step in the range of `s16` is stored as it is. -/
theorem storeS16_toInt {n : Int} (lo : -32768 ≤ n) (hi : n ≤ 32767) : (storeS16 n).toInt = n := by
  rw [storeS16, if_pos ⟨lo, hi⟩]
  simp only [BitVec.toInt_ofInt, Int.bmod]
  omega

/-- `st_push` appends, or counts a drop. -/
theorem stPush_cases (s : State) (cmd : Command) :
    (s.stQ.length < s.params.storeDepth ∧ s.stPush cmd = { s with stQ := s.stQ ++ [cmd] }) ∨
    (s.params.storeDepth ≤ s.stQ.length ∧ s.stPush cmd = { s with stOvf := saturatingIncr s.stOvf }) := by
  unfold State.stPush State.stFull
  by_cases h : s.params.storeDepth ≤ s.stQ.length
  · exact .inr ⟨h, by simp [h, State.setStOvf]⟩
  · exact .inl ⟨by omega, by simp [h, State.setStQ]⟩

/-- The events of an acknowledgment. -/
def ackEvents (p : Params) (b : Byte) : List OutEvent := if p.ackEnable then [.ack b] else []

theorem acknowledge_eq (s : State) (b : Byte) :
    s.acknowledge b = { s with outputs := s.outputs ++ ackEvents s.params b } := by
  unfold State.acknowledge ackEvents
  split <;> simp [State.emitAck, State.emit]

/-- The close step: accepted and stored, accepted and dropped, or rejected. -/
theorem closeFrame_cases (s : State) :
    (s.frameCalc = s.frameRecv ∧ s.stQ.length < s.params.storeDepth ∧
      s.closeFrame = { s with fdState := .idle, fdCount := 0#3, stQ := s.stQ ++ [s.frameCommand], outputs := s.outputs ++ ackEvents s.params s.params.ackPass }) ∨
    (s.frameCalc = s.frameRecv ∧ s.params.storeDepth ≤ s.stQ.length ∧
      s.closeFrame = { s with fdState := .idle, fdCount := 0#3, stOvf := saturatingIncr s.stOvf, outputs := s.outputs ++ ackEvents s.params s.params.ackPass }) ∨
    (s.frameCalc ≠ s.frameRecv ∧
      s.closeFrame = { s with fdState := .idle, fdCount := 0#3, outputs := s.outputs ++ ackEvents s.params s.params.ackFail }) := by
  unfold State.closeFrame
  by_cases h : s.frameCalc = s.frameRecv
  · rcases stPush_cases s s.frameCommand with ⟨hl, hp⟩ | ⟨hl, hp⟩
    · exact .inl ⟨h, hl, by simp [h, hp, acknowledge_eq, State.setDecoder]⟩
    · exact .inr (.inl ⟨h, hl, by simp [h, hp, acknowledge_eq, State.setDecoder]⟩)
  · exact .inr (.inr ⟨h, by simp [h, acknowledge_eq, State.setDecoder]⟩)

/-- The four cases of a received byte. -/
theorem receive_cases (s : State) (b : Byte) :
    (s.fdState = .idle ∧ b = s.params.startByte ∧ s.receive b = { s with fdState := .inFrame, fdCount := 0#3 }) ∨
    (s.fdState = .idle ∧ b ≠ s.params.startByte ∧ s.receive b = s) ∨
    (s.fdState = .inFrame ∧ s.fdCount < 7#3 ∧
      s.receive b = { s with fdBuf := s.fdBuf.write s.fdCount b, fdState := .inFrame, fdCount := s.fdCount + 1#3 }) ∨
    (s.fdState = .inFrame ∧ s.fdCount = 7#3 ∧ s.receive b = { s with fdBuf := s.fdBuf.write 7#3 b }.closeFrame) := by
  unfold State.receive
  split
  · next h =>
    by_cases hb : b = s.params.startByte
    · exact .inl ⟨h, hb, by simp [hb, State.setDecoder]⟩
    · exact .inr (.inl ⟨h, hb, by simp [hb]⟩)
  · next h =>
    by_cases hc : s.fdCount < 7#3
    · exact .inr (.inr (.inl ⟨h, hc, by simp [hc, State.setDecoder, State.memWrite]⟩))
    · have h7 : s.fdCount = 7#3 := by
        have := s.fdCount.isLt
        simp only [BitVec.lt_def, BitVec.toNat_ofNat] at hc
        apply BitVec.eq_of_toNat_eq
        simp only [BitVec.toNat_ofNat]
        omega
      exact .inr (.inr (.inr ⟨h, h7, by simp [h7, State.memWrite]⟩))

/-- The three ways RG.SETT goes on a configured ramp. -/
theorem setTargetVelocity_cases (s : State) (t : Velocity) :
    ((s.boundVelocity t).toInt > (s.boundVelocity s.rgCurrent).toInt ∧
      s.setTargetVelocity t = { s with
        rgTarget := s.boundVelocity t, rgCurrent := s.boundVelocity s.rgCurrent, rgDir := .acc, tmrCompare := s.rgAccelCmp, tmrRun := true, outputs := s.outputs ++ [.setPeriod s.rgAccelCmp, .timerStart] }) ∨
    ((s.boundVelocity t).toInt < (s.boundVelocity s.rgCurrent).toInt ∧
      s.setTargetVelocity t = { s with
        rgTarget := s.boundVelocity t, rgCurrent := s.boundVelocity s.rgCurrent, rgDir := .dec, tmrCompare := s.rgDecelCmp, tmrRun := true, outputs := s.outputs ++ [.setPeriod s.rgDecelCmp, .timerStart] }) ∨
    (s.boundVelocity t = s.boundVelocity s.rgCurrent ∧
      s.setTargetVelocity t = { s with
        rgTarget := s.boundVelocity t, rgCurrent := s.boundVelocity s.rgCurrent, tmrRun := false, outputs := s.outputs ++ [.timerStop] }) := by
  unfold State.setTargetVelocity asS16
  by_cases h1 : (s.boundVelocity t).toInt > (s.boundVelocity s.rgCurrent).toInt
  · refine .inl ⟨h1, ?_⟩
    simp only [h1, if_true]
    simp [State.setTarget, State.setCurrent, State.startRamp, State.setDir, State.setPeriod, State.timerStart, State.emit]
  · by_cases h2 : (s.boundVelocity t).toInt < (s.boundVelocity s.rgCurrent).toInt
    · refine .inr (.inl ⟨h2, ?_⟩)
      simp only [h1, h2, if_true, if_false]
      simp [State.setTarget, State.setCurrent, State.startRamp, State.setDir, State.setPeriod, State.timerStart, State.emit]
    · refine .inr (.inr ⟨BitVec.eq_of_toInt_eq (by omega), ?_⟩)
      simp only [h1, h2, if_false]
      simp [State.setTarget, State.setCurrent, State.timerStop, State.emit]

/-- An effective tick: a new velocity, a stop or none. -/
theorem advance_cases (s : State) :
    ((s.tickBounds s.tickStep).2 || s.tickAtTarget (s.tickBounds s.tickStep).1) = true ∧
      s.advance = { s with
        rgCurrent := storeS16 (s.tickBounds s.tickStep).1, tmrRun := false, outputs := s.outputs ++ [.timerStop, .vel (storeS16 (s.tickBounds s.tickStep).1)] } ∨
    ((s.tickBounds s.tickStep).2 || s.tickAtTarget (s.tickBounds s.tickStep).1) = false ∧
      s.advance = { s with
        rgCurrent := storeS16 (s.tickBounds s.tickStep).1, outputs := s.outputs ++ [.vel (storeS16 (s.tickBounds s.tickStep).1)] } := by
  unfold State.advance
  cases h : ((s.tickBounds s.tickStep).2 || s.tickAtTarget (s.tickBounds s.tickStep).1)
  · exact .inr ⟨rfl, by simp [h, State.setCurrent, State.emitVel, State.emit]⟩
  · exact .inl ⟨rfl, by simp [h, State.setCurrent, State.timerStop, State.emitVel, State.emit]⟩

/-! ## Arrivals and steps -/

/-- What becomes of an event word: its operation, or a refusal. -/
theorem performOp_cases (p : Port) (w : EventWord) (s : State) :
    (∃ i, decodeAt p w = .operation i ∧ performOp p w s = exec i s) ∨
    (∃ e, decodeAt p w = .illegal e ∧ performOp p w s = .next (s.emit (.response p .errIllegal 0#64))) := by
  unfold performOp
  cases h : decodeAt p w with
  | operation i => exact .inl ⟨i, rfl, rfl⟩
  | illegal e => exact .inr ⟨e, rfl, rfl⟩

/-- What one step does. -/
theorem step_cases (s : State) :
    (s.inputs = [] ∧ step s = .next s.clearOutputs) ∨
    (∃ a rest, s.inputs = a :: rest ∧ step s = perform a (s.setInputs rest).clearOutputs) := by
  unfold step
  cases h : s.inputs with
  | nil => exact .inl ⟨rfl, rfl⟩
  | cons a rest => exact .inr ⟨a, rest, rfl, rfl⟩

end Sys2Proof.Machine
end

