-- ==== Sys2Proof/Laws/Frame.lean ====
section
/-!
SUPPORT. Sequences of operations, and the Command that the frame buffer holds.
-/

namespace Sys2Proof.Machine

/-- The bytes of a little-endian number, one by one. -/
theorem littleEndian_digit (l : List Byte) (i : Nat) : littleEndian l / 256 ^ i % 256 = (l.getD i 0#8).toNat := by
  induction l generalizing i with
  | nil => simp [littleEndian]
  | cons b rest ih =>
    have hb := b.isLt
    cases i with
    | zero => simp only [littleEndian, pow_zero, Nat.div_one, List.getD_cons_zero]; omega
    | succ i =>
      rw [List.getD_cons_succ, ← ih i, pow_succ', ← Nat.div_div_eq_div_mul]
      congr 2
      simp only [littleEndian]
      omega

/-- A number of at most eight bytes fits a Command, and its payload bytes are the bytes it was read from. -/
theorem payloadByte_littleEndian (l : List Byte) (hl : l.length ≤ 8) (i : Nat) :
    payloadByte (BitVec.ofNat 64 (littleEndian l)) i = l.getD i 0#8 := by
  apply BitVec.eq_of_toNat_eq
  have h := littleEndian_lt l
  have h' : littleEndian l < 2 ^ 64 := lt_of_lt_of_le h (by
    calc 256 ^ l.length ≤ 256 ^ 8 := Nat.pow_le_pow_right (by norm_num) hl
      _ = 2 ^ 64 := by norm_num)
  rw [payloadByte, BitVec.extractLsb'_toNat, Nat.shiftRight_eq_div_pow, BitVec.toNat_ofNat, Nat.mod_eq_of_lt h',
    pow_mul, ← littleEndian_digit l i, show (2 : Nat) ^ 8 = 256 from rfl]

theorem Memory.bytes_getD (m : Memory) (n i : Nat) (h : i < n) : (m.bytes 0 n).getD i 0#8 = m.read i := by
  simp [Memory.bytes, List.getD, h]

/-- Each payload byte of the Command in the buffer is the byte at that address. -/
theorem State.payloadByte_frameCommand (s : State) (i : Nat) (h : i < 8) :
    payloadByte s.frameCommand i = s.fdBuf.read i := by
  rw [State.frameCommand, Memory.readLE, payloadByte_littleEndian _ (by simp [Config.payloadLen])]
  exact Memory.bytes_getD _ _ _ h

/-- Two Commands with the same payload bytes are equal. -/
theorem command_ext {c d : Command} (h : ∀ i, i < 8 → payloadByte c i = payloadByte d i) : c = d := by
  apply BitVec.eq_of_getLsbD_eq
  intro k hk
  have := congrArg (fun b : Byte => b.getLsbD (k % 8)) (h (k / 8) (by omega))
  simp only [payloadByte, BitVec.getLsbD_extractLsb', Nat.mod_lt k (show 0 < 8 by norm_num), decide_true, Bool.true_and,
    Nat.div_add_mod] at this
  exact this

/-- The checksum field of a Command is its last two payload bytes, low byte first. -/
theorem checksumOf_toNat (cmd : Command) :
    (checksumOf cmd).toNat = (payloadByte cmd 6).toNat + 256 * (payloadByte cmd 7).toNat := by
  simp only [checksumOf, payloadByte, BitVec.extractLsb'_toNat, Nat.shiftRight_eq_div_pow]
  omega

/-- The Command in the buffer is valid exactly when the decoder's two checksums agree (30_encoding.md R84). -/
theorem State.frameCommand_valid (s : State) :
    commandValid s.params.crc s.frameCommand = true ↔ s.frameCalc = s.frameRecv := by
  have hc : checksumOf s.frameCommand = s.frameRecv := by
    apply BitVec.eq_of_toNat_eq
    rw [checksumOf_toNat, State.frameRecv_toNat, s.payloadByte_frameCommand 6 (by omega),
      s.payloadByte_frameCommand 7 (by omega)]
  have hp : (payloadBytes s.frameCommand).take Config.dataLen = s.fdBuf.bytes 0 Config.dataLen := by
    rw [payloadBytes, ← List.map_take, Memory.bytes, Config.payloadLen, Config.dataLen, List.take_range, Nat.min_eq_left (by omega)]
    apply List.map_congr_left
    intro i hi
    rw [List.mem_range] at hi
    rw [s.payloadByte_frameCommand i (by omega), Nat.zero_add]
  rw [commandValid, hc, hp, beq_iff_eq, State.frameCalc]
  exact eq_comm

/-- The decoder's two checksums agree exactly when the number in bytes 6 and 7 is the checksum of bytes 0 to 5. -/
theorem State.frameCalc_eq_frameRecv (s : State) :
    s.frameCalc = s.frameRecv ↔
      (crc16 s.params.crc (s.fdBuf.bytes 0 6)).toNat = (s.fdBuf.read 6).toNat + 256 * (s.fdBuf.read 7).toNat := by
  rw [← State.frameRecv_toNat]
  exact ⟨fun h => by rw [← h]; rfl, fun h => BitVec.eq_of_toNat_eq h⟩

/-- The payload bytes of the Command with given fields: its data bytes and the checksum, low byte first. -/
theorem payloadByte_commandOf (p : Params) (speed : Velocity) (accel decel : Half) (i : Nat) (h : i < 8) :
    payloadByte (commandOf p speed accel decel) i =
      (dataBytes speed accel decel ++ [(crc16 p.crc (dataBytes speed accel decel)).extractLsb' 0 8,
        (crc16 p.crc (dataBytes speed accel decel)).extractLsb' 8 8]).getD i 0#8 := by
  have e : commandOf p speed accel decel =
      (crc16 p.crc (dataBytes speed accel decel) ++ decel ++ accel ++ speed : BitVec 64) := rfl
  rw [e]
  generalize crc16 p.crc (dataBytes speed accel decel) = k
  apply BitVec.eq_of_getLsbD_eq
  intro j hj
  simp only [dataBytes, payloadByte, List.cons_append, List.nil_append]
  have : i = 0 ∨ i = 1 ∨ i = 2 ∨ i = 3 ∨ i = 4 ∨ i = 5 ∨ i = 6 ∨ i = 7 := by omega
  rcases this with rfl | rfl | rfl | rfl | rfl | rfl | rfl | rfl <;>
    simp only [List.getD_cons_zero, List.getD_cons_succ, BitVec.getLsbD_extractLsb', BitVec.getLsbD_append, hj, decide_true,
      Bool.true_and] <;>
    simp only [show ¬ (8 * 2 + j < 16) by omega, show ¬ (8 * 3 + j < 16) by omega, show ¬ (8 * 4 + j < 16) by omega,
      show ¬ (8 * 5 + j < 16) by omega, show ¬ (8 * 6 + j < 16) by omega, show ¬ (8 * 7 + j < 16) by omega,
      show 8 * 0 + j < 16 by omega, show 8 * 1 + j < 16 by omega, show 8 * 2 + j - 16 < 16 by omega,
      show 8 * 3 + j - 16 < 16 by omega, show ¬ (8 * 4 + j - 16 < 16) by omega, show ¬ (8 * 5 + j - 16 < 16) by omega,
      show ¬ (8 * 6 + j - 16 < 16) by omega, show ¬ (8 * 7 + j - 16 < 16) by omega,
      show 8 * 4 + j - 16 - 16 < 16 by omega, show 8 * 5 + j - 16 - 16 < 16 by omega,
      show ¬ (8 * 6 + j - 16 - 16 < 16) by omega, show ¬ (8 * 7 + j - 16 - 16 < 16) by omega, if_true, if_false] <;>
    congr 1 <;> omega

/-! ## The final value of a checksum -/

/-- Bit `i` of the final value (40_crc.md R111). -/
theorem crcFinal_getLsbD (p : CrcParams) (c : Half) (i : Nat) (h : i < 16) :
    (crcFinal p c).getLsbD i = ((if p.refOut then c.getLsbD (15 - i) else c.getLsbD i) ^^ p.xorOut.getLsbD i) := by
  unfold crcFinal
  rw [BitVec.getLsbD_xor]
  split
  · rw [BitVec.getLsbD_reverse, BitVec.getMsbD]
    simp [h]
  · rfl

/-! ## Sequences -/

theorem andThen_andThen (r : Result) (k l : State → Result) :
    andThen (andThen r k) l = andThen r (fun u => andThen (k u) l) := by
  cases r <;> rfl

theorem execAll_append (a b : List Instr) (s : State) : execAll (a ++ b) s = andThen (execAll a s) (execAll b) := by
  induction a generalizing s with
  | nil => rfl
  | cons i rest ih =>
    simp only [List.cons_append, execAll_cons, andThen_andThen]
    congr 1
    exact funext ih

@[simp] theorem performAll_nil (s : State) : performAll [] s = .next s := rfl

@[simp] theorem performAll_cons (a : Arrival) (rest : List Arrival) (s : State) :
    performAll (a :: rest) s = andThen (perform a s) (performAll rest) := rfl

theorem crcFold_append (p : CrcParams) (c : Half) (a b : List Byte) :
    crcFold p c (a ++ b) = crcFold p (crcFold p c a) b := by
  induction a generalizing c with
  | nil => rfl
  | cons x rest ih => exact ih (crcStep p c x)

end Sys2Proof.Machine
end

