-- ==== Sys2Proof/Laws/PerInstr.lean ====
section
/-!
SUPPORT. Facts about every operation as syntax, one lemma per constructor.
-/

namespace Sys2Proof.Laws

/-- The row of the opcode map an operation belongs to (30_encoding.md R91). -/
def rowOf : Instr → Row
  | .crcInit => ⟨.crcInit, .host, 0x000000000000000001#72, maskN⟩
  | .crcByte _ => ⟨.crcByte, .host, 0x000000000000000002#72, maskB⟩
  | .crcRead => ⟨.crcRead, .host, 0x000000000000000003#72, maskN⟩
  | .rxByte _ => ⟨.rxByte, .rx, 0x000000000000000004#72, maskB⟩
  | .stPop => ⟨.stPop, .host, 0x000000000000000005#72, maskN⟩
  | .stLen => ⟨.stLen, .host, 0x000000000000000006#72, maskN⟩
  | .stOvf => ⟨.stOvf, .host, 0x000000000000000007#72, maskN⟩
  | .rgCfg _ _ _ _ _ => ⟨.rgCfg, .host, 0x000000000000000008#72, maskC⟩
  | .rgSett _ => ⟨.rgSett, .host, 0x000000000000000009#72, maskH⟩
  | .rgCur => ⟨.rgCur, .host, 0x00000000000000000A#72, maskN⟩
  | .rgTgt => ⟨.rgTgt, .host, 0x00000000000000000B#72, maskN⟩
  | .tick => ⟨.tick, .timer, 0x00000000000000000C#72, maskN⟩

/-- An operation's word has no reserved bit set and the opcode of its row, and the row's port is the operation's. -/
def EncodeMatchesRow.Statement (i : Instr) : Prop :=
  rowOf i ∈ opcodeMap ∧ (rowOf i).holds (encode i) = true ∧ (rowOf i).port = i.port

theorem encodeB_and_maskB (op : BitVec 4) (b : Byte) : encodeB op b &&& maskB = encodeB op 0#8 := by
  have h : maskB = BitVec.allOnes 56 ++ 0#8 ++ BitVec.allOnes 4 ++ BitVec.allOnes 4 := by decide
  rw [h]
  change (0#56 ++ b ++ 0#4 ++ op : BitVec (56 + 8 + 4 + 4)) &&&
    (BitVec.allOnes 56 ++ 0#8 ++ BitVec.allOnes 4 ++ BitVec.allOnes 4) = 0#56 ++ 0#8 ++ 0#4 ++ op
  simp only [BitVec.and_append, BitVec.and_allOnes, BitVec.and_zero]

theorem encodeH_and_maskH (op : BitVec 4) (t : Half) : encodeH op t &&& maskH = encodeH op 0#16 := by
  have h : maskH = BitVec.allOnes 48 ++ 0#16 ++ BitVec.allOnes 4 ++ BitVec.allOnes 4 := by decide
  rw [h]
  change (0#48 ++ t ++ 0#4 ++ op : BitVec (48 + 16 + 4 + 4)) &&&
    (BitVec.allOnes 48 ++ 0#16 ++ BitVec.allOnes 4 ++ BitVec.allOnes 4) = 0#48 ++ 0#16 ++ 0#4 ++ op
  simp only [BitVec.and_append, BitVec.and_allOnes, BitVec.and_zero]

theorem encodeC_and_maskC (op : BitVec 4) (ac dc : Half) (mn mx : Velocity) (be : Bool) :
    encodeC op ac dc mn mx be &&& maskC = encodeC op 0#16 0#16 0#16 0#16 false := by
  have h : maskC = 0#16 ++ 0#16 ++ 0#16 ++ 0#16 ++ BitVec.allOnes 3 ++ 0#1 ++ BitVec.allOnes 4 := by decide
  rw [h]
  change (mx ++ mn ++ dc ++ ac ++ 0#3 ++ BitVec.ofBool be ++ op : BitVec (16 + 16 + 16 + 16 + 3 + 1 + 4)) &&&
    (0#16 ++ 0#16 ++ 0#16 ++ 0#16 ++ BitVec.allOnes 3 ++ 0#1 ++ BitVec.allOnes 4)
      = 0#16 ++ 0#16 ++ 0#16 ++ 0#16 ++ 0#3 ++ 0#1 ++ op
  simp only [BitVec.and_append, BitVec.and_allOnes, BitVec.and_zero]

namespace EncodeMatchesRow

theorem crcInit : Statement .crcInit := by unfold Statement; decide
theorem crcByte (b : Byte) : Statement (.crcByte b) := by
  refine ⟨by simp [rowOf, opcodeMap], ?_, rfl⟩
  simp only [Row.holds, rowOf, encode, encodeB_and_maskB]
  decide
theorem crcRead : Statement .crcRead := by unfold Statement; decide
theorem rxByte (b : Byte) : Statement (.rxByte b) := by
  refine ⟨by simp [rowOf, opcodeMap], ?_, rfl⟩
  simp only [Row.holds, rowOf, encode, encodeB_and_maskB]
  decide
theorem stPop : Statement .stPop := by unfold Statement; decide
theorem stLen : Statement .stLen := by unfold Statement; decide
theorem stOvf : Statement .stOvf := by unfold Statement; decide
theorem rgCfg (accel decel : Half) (min max : Velocity) (be : Bool) : Statement (.rgCfg accel decel min max be) := by
  refine ⟨by simp [rowOf, opcodeMap], ?_, rfl⟩
  simp only [Row.holds, rowOf, encode, encodeC_and_maskC]
  decide
theorem rgSett (t : Velocity) : Statement (.rgSett t) := by
  refine ⟨by simp [rowOf, opcodeMap], ?_, rfl⟩
  simp only [Row.holds, rowOf, encode, encodeH_and_maskH]
  decide
theorem rgCur : Statement .rgCur := by unfold Statement; decide
theorem rgTgt : Statement .rgTgt := by unfold Statement; decide
theorem tick : Statement .tick := by unfold Statement; decide

end EncodeMatchesRow

end Sys2Proof.Laws
end

