-- ==== Sys2Proof/Tests/Slice0.lean ====
section
/-!
SUPPORT. Tests: the expected results are those of the spec (95_test_vectors.md and the examples of the rules), each
named in its comment. Then, for every obligation with hypotheses, a witness that meets them.
-/

namespace Sys2Proof.Tests

open Sys2Proof.Machine

/-! ## Helpers: the default parameter set of 95_test_vectors.md, and small states -/

/-- The default set: CRC-16/CCITT-FALSE, acknowledgment on, depth 10, granularity 4. -/
def tp : Params := ⟨CrcParams.ccittFalse, 0x21#8, true, 0x47#8, 0x42#8, 10, 4⟩

/-- The default set with a store of one entry. -/
def tp1 : Params := { tp with storeDepth := 1 }

/-- Reset with the default set. -/
def t0 : State := State.resetWith tp

/-- A frame is open and `n` bytes of it are stored: the buffer of V-FD-1, bytes `64 00 32 00 19 00 C3`. -/
def open' (p : Params) (n : BitVec 3) : State :=
  { State.resetWith p with
    fdState := .inFrame, fdCount := n, fdBuf := [(0, 0x64#8), (2, 0x32#8), (4, 0x19#8), (6, 0xC3#8)] }

/-- A configured ramp with `ac` = 250, `dc` = 500 (95_test_vectors.md section 6). -/
def ramp (cur tgt : Int) (d : Direction) (min max : Int) (on run : Bool) : State :=
  { t0 with
    rgCurrent := BitVec.ofInt 16 cur, rgTarget := BitVec.ofInt 16 tgt, rgDir := d, rgMin := BitVec.ofInt 16 min,
    rgMax := BitVec.ofInt 16 max, rgBoundsEn := on, rgConfigured := true, rgAccelCmp := 250#20, rgDecelCmp := 500#20,
    tmrRun := run }

/-- What a result shows, if it is a next state. -/
def seen {α : Type} (f : State → α) (r : Result) : Option α :=
  match r with
  | .next s => some (f s)
  | .fault _ => none
  | .refused _ => none

/-- The registers of the ramp a test looks at. -/
def rampView (s : State) : Int × Int × Direction × Bool := (s.rgCurrent.toInt, s.rgTarget.toInt, s.rgDir, s.tmrRun)

/-- Pins with nothing offered. -/
def quiet : InPins := ⟨false, false, 0#72, false, 0#8, false⟩

/-! ## Well-formedness: an ill-formed term for each check -/

theorem test_wf_default : tp.wf := by decide
theorem test_wf_refuses_equal_acks : ¬ ({ tp with ackPass := 0x42#8 } : Params).wf := by decide
theorem test_wf_refuses_depth_zero : ¬ ({ tp with storeDepth := 0 } : Params).wf := by decide
theorem test_wf_refuses_depth_sixteen : ¬ ({ tp with storeDepth := 16 } : Params).wf := by decide
theorem test_wf_refuses_granularity_zero : ¬ ({ tp with granularity := 0 } : Params).wf := by decide
theorem test_wf_refuses_wrong_port : ¬ Instr.wfAt .tick .host := by decide

/-! ## Decoding: words written out from 30_encoding.md R87 to R91 (V-EN-1, V-EN-2, V-EN-3) -/

theorem test_decode_crcInit : decodeAt .host 0x000000000000000001#72 = .operation .crcInit := by decide
theorem test_decode_crcByte : decodeAt .host 0x00000000000000FF02#72 = .operation (.crcByte 0xFF#8) := by decide
theorem test_decode_crcRead : decodeAt .host 0x000000000000000003#72 = .operation .crcRead := by decide
theorem test_decode_rxByte : decodeAt .rx 0x000000000000002104#72 = .operation (.rxByte 0x21#8) := by decide
theorem test_decode_stPop : decodeAt .host 0x000000000000000005#72 = .operation .stPop := by decide
theorem test_decode_stLen : decodeAt .host 0x000000000000000006#72 = .operation .stLen := by decide
theorem test_decode_stOvf : decodeAt .host 0x000000000000000007#72 = .operation .stOvf := by decide
theorem test_decode_rgCfg : decodeAt .host 0x03E8FC189C404E2008#72
    = .operation (.rgCfg 20000#16 40000#16 (BitVec.ofInt 16 (-1000)) 1000#16 false) := by decide
theorem test_decode_rgCfg_enforced : decodeAt .host 0x7FFF8000FFFF000118#72
    = .operation (.rgCfg 1#16 65535#16 (BitVec.ofInt 16 (-32768)) 32767#16 true) := by decide
theorem test_decode_rgSett : decodeAt .host 0x00000000000003E809#72 = .operation (.rgSett 1000#16) := by decide
theorem test_decode_rgCur : decodeAt .host 0x00000000000000000A#72 = .operation .rgCur := by decide
theorem test_decode_rgTgt : decodeAt .host 0x00000000000000000B#72 = .operation .rgTgt := by decide
theorem test_decode_tick : decodeAt .timer 0x00000000000000000C#72 = .operation .tick := by decide

theorem test_illegal_opcodes :
    decodeAt .host 0x0#72 = .illegal .unassignedOpcode ∧ decodeAt .host 0xD#72 = .illegal .unassignedOpcode ∧
    decodeAt .host 0xE#72 = .illegal .unassignedOpcode ∧ decodeAt .host 0xF#72 = .illegal .unassignedOpcode := by decide
theorem test_illegal_reserved_N :
    decodeAt .host 0x11#72 = .illegal .reservedBit ∧ decodeAt .host 0x100000000000000001#72 = .illegal .reservedBit ∧
    decodeAt .host 0x105#72 = .illegal .reservedBit := by decide
theorem test_illegal_reserved_BHC :
    decodeAt .host 0x10302#72 = .illegal .reservedBit ∧ decodeAt .host 0x1000009#72 = .illegal .reservedBit ∧
    decodeAt .host 0x28#72 = .illegal .reservedBit ∧ decodeAt .host 0x48#72 = .illegal .reservedBit ∧
    decodeAt .host 0x88#72 = .illegal .reservedBit := by decide
theorem test_illegal_ports :
    decodeAt .host 0x2104#72 = .illegal .wrongPort ∧ decodeAt .host 0xC#72 = .illegal .wrongPort ∧
    decodeAt .rx 0x1#72 = .illegal .wrongPort ∧ decodeAt .rx 0xC#72 = .illegal .wrongPort ∧
    decodeAt .timer 0x5#72 = .illegal .wrongPort ∧ decodeAt .timer 0x2104#72 = .illegal .wrongPort := by decide

/-- The rows of the opcode map exclude each other (30_encoding.md R92). -/
theorem test_rows_disjoint :
    opcodeMap.Pairwise (fun r r' => (r.pattern ^^^ r'.pattern) &&& (r.mask &&& r'.mask) ≠ 0#72) := by decide

/-- The words of 43_ramp.md R181, R185 from the encoder. -/
theorem test_encode_rgCfg : encode (.rgCfg 1000#16 500#16 0#16 1000#16 true) = 0x03E8000001F403E818#72 := by decide
theorem test_encode_rgSett : encode (.rgSett 3#16) = 0x000000000000000309#72 := by decide

theorem test_table_word : decodeTableWord 72 0x000000000000002104 = some (.rxByte 0x21#8) := by decide
theorem test_table_word_refused : decodeTableWord 72 0x100000000000000001 = none := by decide

/-- The placed word runs next (30_encoding.md V-EN-1, RX.BYTE on the rx port). -/
theorem test_withFetchWord : seen (fun s => (s.fdState, s.outputs)) (step (t0.withFetchWord 72 0x2104))
    = some (.inFrame, [.response .rx .ok 0#64]) := by decide

/-! ## Memory -/

theorem test_mem_write_read : (Memory.write [(2, 0x32#8)] 1#3 0x7F#8).read 1 = 0x7F#8 := by decide
theorem test_mem_write_zero_removes : Memory.write [(1, 0x7F#8), (2, 0x32#8)] 1#3 0#8 = [(2, 0x32#8)] := by decide
theorem test_mem_little_endian : Memory.readLE [(6, 0xC3#8), (7, 0x2F#8)] 6 2 = 0x2FC3 := by decide

/-! ## CRC (40_crc.md R115, R120; V-CRC-1, V-CRC-2) -/

theorem test_crcStep : crcStep CrcParams.ccittFalse 0xFFFF#16 0x31#8 = 0xC782#16 := by decide
theorem test_check_false : crc16 CrcParams.ccittFalse [0x31#8, 0x32#8, 0x33#8, 0x34#8, 0x35#8, 0x36#8, 0x37#8, 0x38#8, 0x39#8]
    = 0x29B1#16 := by decide +kernel
theorem test_check_kermit : crc16 CrcParams.kermit [0x31#8, 0x32#8, 0x33#8, 0x34#8, 0x35#8, 0x36#8, 0x37#8, 0x38#8, 0x39#8]
    = 0x2189#16 := by decide +kernel
theorem test_check_x25 : crc16 CrcParams.x25 [0x31#8, 0x32#8, 0x33#8, 0x34#8, 0x35#8, 0x36#8, 0x37#8, 0x38#8, 0x39#8]
    = 0x906E#16 := by decide +kernel
theorem test_crc_xmodem_A : crc16 CrcParams.xmodem [0x41#8] = 0x58E5#16 := by decide
theorem test_crc_mcrf4xx_A : crc16 CrcParams.mcrf4xx [0x41#8] = 0x5C0A#16 := by decide +kernel
theorem test_crcInit : seen State.crcAcc (exec .crcInit { t0 with crcAcc := 0x1234#16 }) = some 0xFFFF#16 := by decide
theorem test_crcByte : seen State.crcAcc (exec (.crcByte 0x32#8) { t0 with crcAcc := 0xC782#16 }) = some 0x3DBA#16 := by decide
theorem test_crcRead : seen State.outputs (exec .crcRead { t0 with crcAcc := 0x29B1#16 })
    = some [.response .host .ok 0x29B1#64] := by decide

/-! ## Frame decoder (V-FD-1, V-FD-3, V-FD-5; 41_frame_decoder.md R130) -/

theorem test_rx_good_close :
    seen (fun s => (s.stQ, s.fdState, s.fdCount, s.outputs)) (exec (.rxByte 0x2F#8) (open' tp 7#3))
    = some ([0x2FC3001900320064#64], .idle, 0#3, [.ack 0x47#8, .response .rx .ok 0#64]) := by decide +kernel
theorem test_rx_bad_close :
    seen (fun s => (s.stQ, s.fdState, s.outputs)) (exec (.rxByte 0xAF#8) (open' tp 7#3))
    = some ([], .idle, [.ack 0x42#8, .response .rx .ok 0#64]) := by decide +kernel

/-! ## Store (V-ST-2, V-ST-4, V-ST-5) -/

theorem test_stPop : seen (fun s => (s.stQ, s.outputs)) (exec .stPop { t0 with stQ := [0xF38B000300020001#64, 0x7#64] })
    = some ([0x7#64], [.response .host .ok 0xF38B000300020001#64]) := by decide
theorem test_stLen : seen State.outputs (exec .stLen { t0 with stQ := [1#64, 2#64, 3#64] })
    = some [.response .host .ok 3#64] := by decide
theorem test_stOvf : seen State.outputs (exec .stOvf { t0 with stOvf := 0xFFFF#16 })
    = some [.response .host .ok 0xFFFF#64] := by decide
theorem test_push_full_counts : (({ open' tp1 7#3 with stQ := [9#64] } : State).stPush 5#64).stOvf = 1#16 := by decide
theorem test_push_saturates : (({ open' tp1 7#3 with stQ := [9#64], stOvf := 0xFFFF#16 } : State).stPush 5#64).stOvf
    = 0xFFFF#16 := by decide

/-! ## Ramp (V-RG-1 to V-RG-35) -/

theorem test_rate_one : rateToCmp 4 1#16 = 250000#20 := by decide
theorem test_rate_truncates : rateToCmp 4 65535#16 = 3#20 := by decide
theorem test_rgCfg : seen (fun s => (s.rgAccelCmp, s.rgDecelCmp, s.rgMin, s.rgMax, s.rgConfigured))
    (exec (.rgCfg 1000#16 500#16 0#16 1000#16 true) t0) = some (250#20, 500#20, 0#16, 1000#16, true) := by decide
theorem test_rgCfg_signed_bounds : seen State.outputs (exec (.rgCfg 5#16 5#16 0x7FFF#16 0x8000#16 false) t0)
    = some [.response .host .errCfg 0#64] := by decide
theorem test_rgSett_redirects : seen rampView (exec (.rgSett 500#16) (ramp 1500 0 .acc 0 1000 true false))
    = some (1000, 500, .dec, true) := by decide
theorem test_rgSett_events : seen State.outputs (exec (.rgSett 0#16) (ramp 3 0 .acc 0 1000 true false))
    = some [.setPeriod 500#20, .timerStart, .response .host .ok 0#64] := by decide
theorem test_tick_stops : seen (fun s => (rampView s, s.outputs)) (exec .tick (ramp 999 1000 .acc 0 1000 true true))
    = some ((1000, 1000, .acc, false), [.timerStop, .vel 1000#16, .response .timer .ok 0#64]) := by decide
theorem test_tick_clamps_against_direction : seen rampView (exec .tick (ramp 5 10 .acc 0 3 true true))
    = some (3, 10, .acc, false) := by decide
theorem test_rgCur : seen State.outputs (exec .rgCur (ramp (-3) 1000 .acc 0 0 false false))
    = some [.response .host .ok 0xFFFD#64] := by decide
theorem test_rgTgt : seen State.outputs (exec .rgTgt (ramp (-3) 1000 .acc 0 0 false false))
    = some [.response .host .ok 0x3E8#64] := by decide

/-! ## Responses to illegal words, and text (V-EN-3; 30_encoding.md R98) -/

theorem test_illegal_before_operands : seen State.outputs (performOp .host 0x38#72 t0)
    = some [.response .host .errIllegal 0#64] := by decide
theorem test_trace_rgCfg : traceLine (.rgCfg 1000#16 500#16 0#16 1000#16 true)
    = "host: RG.CFG accel=1000 decel=500 min=0 max=1000 be=1" := by decide
theorem test_trace_ack : eventText (.rxByte 0x2F#8) (.ack 0x47#8) = "ack 0x47" := by decide

/-! ## Witnesses: states and operands that meet the hypotheses of the obligations -/

theorem witness_EncodedOperationsDecodeBackAtTheirPort :
    Instr.wfAt .tick .timer ∧ ¬ Instr.wfAt (.rxByte 0xFF#8) .host := by decide

theorem witness_DecodingFollowsTheOpcodeMap :
    (∀ r ∈ opcodeMap, 0x0#72 &&& r.mask ≠ r.pattern) ∧
    (∃ r ∈ opcodeMap, 0xC#72 &&& r.mask = r.pattern ∧ r.port ≠ .host) ∧
    (∃ r ∈ opcodeMap, 0xC#72 &&& r.mask = r.pattern ∧ r.port = .timer) := by decide

theorem witness_IllegalWordsAreRefused :
    ((0xF#72).extractLsb' 0 4 ∈ [0x0#4, 0xD#4, 0xE#4, 0xF#4]) ∧
    ((0x800000000000000001#72).extractLsb' 0 4 = 0x1#4 ∧ (0x800000000000000001#72).extractLsb' 4 68 ≠ 0#68) ∧
    ((0x10002#72).extractLsb' 0 4 = 0x2#4 ∧ (0x10002#72).extractLsb' 16 56 ≠ 0#56) ∧
    ((0x1000009#72).extractLsb' 0 4 = 0x9#4 ∧ (0x1000009#72).extractLsb' 24 48 ≠ 0#48) ∧
    ((0x88#72).extractLsb' 0 4 = 0x8#4 ∧ (0x88#72).extractLsb' 5 3 ≠ 0#3) := by decide

theorem witness_WordsOnTheWrongPortAreRefused : Port.host ≠ (Instr.tick).port := by decide

theorem witness_StepPerformsTheDecodedOperation :
    ({ t0 with inputs := [.op .timer 0xC#72] } : State).inputs = .op .timer 0xC#72 :: [] ∧ Instr.wfAt .tick .timer ∧
    decodeAt .timer 0xC#72 = .operation .tick := by decide

theorem witness_ResetPutsEveryRegisterAtItsValue :
    ({ open' tp 7#3 with inputs := [.edge { quiet with rst := true, rxValid := true }] } : State).inputs
      = .edge { quiet with rst := true, rxValid := true } :: [] ∧ ({ quiet with rst := true, rxValid := true } : InPins).rst
      = true := by decide

theorem witness_AnIdleCoreStaysIdle :
    t0.inputs = [] ∧ ({ open' tp 7#3 with inputs := [.edge quiet] } : State).inputs = .edge quiet :: [] ∧
    quiet.rst = false ∧ quiet.tick = false ∧ quiet.hValid = false ∧ quiet.rxValid = false := by decide

/-- Everything offered at once: a tick, a ST.POP and the last byte of a frame. -/
def busy : InPins := ⟨false, true, 0x5#72, true, 0x2F#8, true⟩

theorem witness_AClockEdgePerformsTimerThenHostThenRx : busy.rst = false := by decide

theorem witness_OutputPinsAfterAClockEdge :
    ({ open' tp 7#3 with inputs := [.edge busy] } : State).inputs = .edge busy :: [] ∧ busy.rst = false ∧
    seen (fun t => (t.outPins.hResponse, t.outPins.ack, t.outPins.vel)) (step { open' tp 7#3 with inputs := [.edge busy] })
      = some (some (0x1#4, 0#64), some 0x47#8, none) := by decide +kernel

/-- A full store of one entry and a frame about to close. -/
def fullClosing : State := { open' tp1 7#3 with stQ := [9#64] }

theorem witness_APopInTheSameCycleMakesRoom :
    busy.rst = false ∧ busy.hValid = true ∧ busy.hWord = 0x000000000000000005#72 ∧ busy.rxValid = true ∧
    fullClosing.stQ = 9#64 :: [] ∧ fullClosing.stQ.length = fullClosing.params.storeDepth ∧
    fullClosing.fdState = .inFrame ∧ fullClosing.fdCount = 7#3 ∧
    seen (fun t => decide ((crc16 tp1.crc (t.fdBuf.bytes 0 6)).toNat = (t.fdBuf.read 6).toNat + 256 * (t.fdBuf.read 7).toNat))
      (performEdge busy fullClosing) = some true := by decide +kernel

theorem witness_ParametersNeverChange : ∃ t, step { t0 with inputs := [.edge { quiet with rst := true }] } = .next t := ⟨_, rfl⟩

theorem witness_ResetIsAGoodState : tp.wf ∧ ({ tp with storeDepth := 15 } : Params).wf ∧ tp1.wf := by decide

/-- A good state with an open frame, a Command in the store, a running ramp and a tick that has arrived. -/
def midway : State :=
  { open' tp 3#3 with
    stQ := [0x2FC3001900320064#64], rgTarget := 5#16, rgConfigured := true, tmrRun := true,
    inputs := [.op .timer 0xC#72] }

theorem witness_EveryStepKeepsGoodStatesGood : GoodState midway ∧ ∃ t, step midway = .next t := by
  refine ⟨⟨by decide, by decide, ⟨by decide, ?_⟩, by decide⟩, _, rfl⟩
  intro cmd h
  simp only [midway, List.mem_cons, List.not_mem_nil, or_false] at h
  subst h
  decide +kernel

theorem witness_RampInvariantsAndNoOverflow :
    RampInv (ramp 32766 32767 .acc 0 0 false true) ∧ (ramp 32766 32767 .acc 0 0 false true).tmrRun = true ∧
    RampInv (ramp (-32767) (-32768) .dec 0 0 false true) ∧ (ramp (-32767) (-32768) .dec 0 0 false true).rgDir = .dec ∧
    (exec .tick (ramp 32766 32767 .acc 0 0 false true) |> seen rampView) = some (32767, 32767, .acc, false) := by decide

theorem witness_EveryWordIsAnsweredOnceAndRefusalsArePrecise :
    (∃ t, performOp .host 0x1#72 t0 = .next t) ∧ (∃ t, performOp .host 0x0#72 t0 = .next t) := ⟨⟨_, rfl⟩, ⟨_, rfl⟩⟩

/-- Each status is answered by some word: OK, EMPTY, IGNORED, ERR_CFG, ERR_NOCFG, ERR_ILLEGAL. -/
theorem witness_StatusConditions :
    seen (fun t => t.outputs.getLast?) (performOp .host 0x1#72 t0) = some (some (.response .host .ok 0#64)) ∧
    seen (fun t => t.outputs.getLast?) (performOp .host 0x5#72 t0) = some (some (.response .host .empty 0#64)) ∧
    seen (fun t => t.outputs.getLast?) (performOp .timer 0xC#72 t0) = some (some (.response .timer .ignored 0#64)) ∧
    seen (fun t => t.outputs.getLast?) (performOp .host 0x8#72 t0) = some (some (.response .host .errCfg 0#64)) ∧
    seen (fun t => t.outputs.getLast?) (performOp .host 0x509#72 t0) = some (some (.response .host .errNocfg 0#64)) ∧
    seen (fun t => t.outputs.getLast?) (performOp .rx 0x1#72 t0) = some (some (.response .rx .errIllegal 0#64)) := by decide

/-- One operation of each block that the frame distinguishes. -/
theorem witness_OperationsTouchOnlyTheirRegisters :
    (∃ t, exec .crcInit t0 = .next t) ∧ (∃ t, exec .stPop { t0 with stQ := [9#64] } = .next t) ∧
    (∃ t, exec (.rxByte 0x21#8) (open' tp 7#3) = .next t) ∧ (∃ t, exec (.rgCfg 1#16 1#16 5#16 5#16 true) t0 = .next t) ∧
    (∃ t, exec (.rgSett 5#16) (ramp 0 0 .dec 0 9 true false) = .next t) ∧
    (∃ t, exec .tick (ramp 0 5 .acc 0 9 true true) = .next t) :=
  ⟨⟨_, rfl⟩, ⟨_, rfl⟩, ⟨_, rfl⟩, ⟨_, rfl⟩, ⟨_, rfl⟩, ⟨_, rfl⟩⟩

theorem witness_PortsReachOnlyTheirRegisters :
    (∃ t, performOp .rx 0x2F04#72 (open' tp 7#3) = .next t) ∧
    (∃ t, performOp .timer 0xC#72 (ramp 0 5 .acc 0 9 true true) = .next t) ∧
    (∃ t, performOp .host 0x5#72 fullClosing = .next t) := ⟨⟨_, rfl⟩, ⟨_, rfl⟩, ⟨_, rfl⟩⟩

theorem witness_OperationsOfSeparateBlocksCommute :
    (blockOf .crcRead = .crc ∧ blockOf (.rxByte 0x21#8) ≠ .crc) ∧
    (blockOf (.rxByte 0x2F#8) = .decoder ∧ blockOf .tick = .ramp) := by decide

theorem witness_CrcStepIsTheBitSerialAlgorithm :
    (∀ i, i < 8 → (0x8C#8).getLsbD i = if CrcParams.kermit.refIn then (0x31#8).getLsbD (7 - i) else (0x31#8).getLsbD i) ∧
    (∀ i, i < 8 → (0x31#8).getLsbD i = if CrcParams.xmodem.refIn then (0x31#8).getLsbD (7 - i) else (0x31#8).getLsbD i) := by
  decide

theorem witness_CrcComputationsAreIndependent :
    ∀ i ∈ [Instr.crcByte 0x31#8, .rxByte 0x21#8, .tick, .stPop, .rgSett 3#16, .crcByte 0x32#8],
      blockOf i = .crc → ∃ b, i = .crcByte b := by
  intro i hi hb
  simp only [List.mem_cons, List.not_mem_nil, or_false] at hi
  rcases hi with rfl | rfl | rfl | rfl | rfl | rfl <;> first | exact ⟨_, rfl⟩ | cases hb

theorem witness_ZeroBytesWithZeroInitHaveChecksumZero :
    CrcParams.kermit.init = 0#16 ∧ CrcParams.kermit.xorOut = 0#16 := by decide

theorem witness_ChecksumHighByteFirstFoldsToZero :
    CrcParams.ccittFalse.refIn = false ∧ CrcParams.ccittFalse.refOut = false ∧ CrcParams.ccittFalse.xorOut = 0#16 := by decide

theorem witness_CrcStepIsBijective : CrcParams.x25.poly = 0x1021#16 := by decide

theorem witness_RxByteWhileIdle :
    t0.fdState = .idle ∧ 0x21#8 = t0.params.startByte ∧ 0x20#8 ≠ t0.params.startByte := by decide

/-- The first, the last but one and the last position of the buffer. -/
theorem witness_RxByteStoresPayload :
    (open' tp 0#3).fdState = .inFrame ∧ (open' tp 0#3).fdCount.toNat < 7 ∧ (open' tp 6#3).fdState = .inFrame ∧
    (open' tp 6#3).fdCount.toNat < 7 ∧ (open' tp 7#3).fdState = .inFrame ∧ ¬ (open' tp 7#3).fdCount.toNat < 7 := by decide

/-- The eighth byte 0x2F makes the checksums agree and 0xAF does not (V-FD-1, V-FD-11); a store with room and a full one. -/
theorem witness_RxByteClosesTheFrame :
    (open' tp 7#3).fdState = .inFrame ∧ (open' tp 7#3).fdCount = 7#3 ∧
    (crc16 tp.crc [0x64#8, 0x00#8, 0x32#8, 0x00#8, 0x19#8, 0x00#8]).toNat = (0xC3#8).toNat + 256 * (0x2F#8).toNat ∧
    (crc16 tp.crc [0x64#8, 0x00#8, 0x32#8, 0x00#8, 0x19#8, 0x00#8]).toNat ≠ (0xC3#8).toNat + 256 * (0xAF#8).toNat ∧
    (open' tp 7#3).stQ.length < tp.storeDepth ∧ fullClosing.params.storeDepth ≤ fullClosing.stQ.length ∧
    fullClosing.fdState = .inFrame ∧ fullClosing.fdCount = 7#3 := by decide +kernel

theorem witness_AcknowledgmentsExactlyAtTheClose :
    (blockOf (.rxByte 0x2F#8) = .decoder ∧ (open' tp 7#3).fdState = .inFrame ∧ (open' tp 7#3).fdCount = 7#3 ∧
      (open' tp 7#3).params.ackEnable = true ∧
      seen State.outputs (exec (.rxByte 0x2F#8) (open' tp 7#3)) = some ([] ++ [.ack 0x47#8, .response .rx .ok 0#64])) ∧
    ((open' tp 6#3).fdCount ≠ 7#3 ∧
      seen State.outputs (exec (.rxByte 0x2F#8) (open' tp 6#3)) = some ([] ++ [.response .rx .ok 0#64])) := by decide +kernel

theorem witness_TheDecoderNeverUsesTheAccumulator : ∃ t, exec (.rxByte 0x2F#8) (open' tp 7#3) = .next t := ⟨_, rfl⟩

/-- Two decoders three bytes into a frame that differ in the stale bytes 3 to 7. -/
theorem witness_StaleBufferBytesAreNeverObservable :
    SameButStale (open' tp 3#3) { open' tp 3#3 with fdBuf := [(0, 0x64#8), (2, 0x32#8), (5, 0x99#8)] } ∧
    (open' tp 3#3).fdBuf ≠ [(0, 0x64#8), (2, 0x32#8), (5, 0x99#8)] := by
  refine ⟨⟨rfl, ?_⟩, by decide⟩
  intro _ a ha
  have h : a = 0 ∨ a = 1 ∨ a = 2 := by
    have : a < 3 := ha
    omega
  rcases h with rfl | rfl | rfl <;> rfl

theorem witness_AGoodFrameIsAccepted : t0.fdState = .idle ∧ t0.stQ.length < t0.params.storeDepth := by decide

theorem witness_ABadFrameIsRejectedAndTheNextAccepted :
    t0.fdState = .idle ∧ t0.stQ.length < t0.params.storeDepth ∧
    [0x64#8, 0x00#8, 0x32#8, 0x00#8, 0x19#8, 0x00#8].length = 6 ∧
    (crc16 t0.params.crc [0x64#8, 0x00#8, 0x32#8, 0x00#8, 0x19#8, 0x00#8]).toNat ≠ (0xC2#8).toNat + 256 * (0x2F#8).toNat := by
  decide +kernel

theorem witness_GarbageWithoutASentinelDoesNothing :
    t0.fdState = .idle ∧ t0.params.startByte ∉ [0x00#8, 0x47#8, 0x42#8, 0xFF#8, 0x20#8, 0x22#8, 0x64#8] := by decide

theorem witness_BackToBackFramesAreAllAccepted :
    t0.fdState = .idle ∧ t0.stQ.length + [(1#16, 2#16, 3#16), (0xFFFE#16, 3#16, 4#16), (3#16, 4#16, 5#16)].length
      ≤ t0.params.storeDepth := by decide

/-- Room, and none. -/
theorem witness_PushAppendsOrCounts :
    ({ t0 with stQ := List.replicate 9 1#64 } : State).stQ.length < tp.storeDepth ∧
    tp.storeDepth ≤ ({ t0 with stQ := List.replicate 10 1#64 } : State).stQ.length := by decide

theorem witness_PopAnswersTheOldestEntry : t0.stQ = [] ∧ ({ t0 with stQ := [9#64, 7#64] } : State).stQ = 9#64 :: [7#64] := by
  decide

theorem witness_LenAndOvfAnswerTheCounts :
    t0.stQ.length ≤ 15 ∧ ({ t0 with stQ := List.replicate 15 1#64 } : State).stQ.length ≤ 15 := by decide

theorem witness_TheStoreIsFirstInFirstOut :
    (t0.stQ = [] ∧ (List.replicate 10 9#64).length ≤ t0.params.storeDepth) ∧
    ∃ t, storeRun [.push 9#64, .push 7#64, .pop, .push 5#64] t0 = .next t ∧ t0.stOvf ≠ 0xFFFF#16 ∧ t.stOvf = t0.stOvf :=
  ⟨by decide, _, rfl, by decide, rfl⟩

theorem witness_OnlyResetForgets :
    (∃ t, exec .stPop fullClosing = .next t) ∧
    (fullClosing.fdState = .inFrame ∧
      seen (fun t => (t.fdState, t.stOvf)) (exec (.rxByte 0x2F#8) fullClosing) = some (.idle, 1#16)) ∧
    (ramp 0 0 .acc 0 0 false false).rgConfigured = true :=
  ⟨⟨_, rfl⟩, by decide +kernel, rfl⟩

theorem witness_RateConversion : 1 ≤ 1 ∧ (1#16 : Half) ≠ 0#16 ∧ (65535#16 : Half) ≠ 0#16 := by decide

/-- Each reason to refuse, and the legal boundary `min = max` with the smallest rates. -/
theorem witness_CfgLoadsOrRefuses :
    1 ≤ t0.params.granularity ∧ (0#16 : Half) = 0#16 ∧ (2#16 : Velocity).toInt < (3#16 : Velocity).toInt ∧
    ((1#16 : Half) ≠ 0#16 ∧ (5#16 : Velocity).toInt ≤ (5#16 : Velocity).toInt) := by decide

/-- Refused; started up, started down, cancelled (V-RG-9, V-RG-10, V-RG-13, V-RG-20). -/
theorem witness_SettStartsRedirectsOrCancels :
    t0.rgConfigured = false ∧ (ramp 0 0 .acc 0 1000 true false).rgConfigured = true ∧
    seen rampView (exec (.rgSett 1000#16) (ramp 0 0 .acc 0 1000 true false)) = some (0, 1000, .acc, true) ∧
    seen rampView (exec (.rgSett 0#16) (ramp 3 0 .acc 0 1000 true false)) = some (3, 0, .dec, true) ∧
    seen rampView (exec (.rgSett 2000#16) (ramp 1000 0 .dec 0 1000 true true)) = some (1000, 1000, .dec, false) := by decide

theorem witness_SettClampsTargetAndCurrent :
    (ramp 1500 0 .acc 0 1000 true false).rgConfigured = true ∧ (ramp 1500 0 .acc 0 1000 true false).rgBoundsEn = true ∧
    (ramp 1500 0 .acc 0 1000 true false).rgMin.toInt ≤ (ramp 1500 0 .acc 0 1000 true false).rgMax.toInt := by decide

theorem witness_TickStepsClampsAndStops :
    t0.tmrRun = false ∧ RampInv (ramp 999 1000 .acc 0 1000 true true) ∧ (ramp 999 1000 .acc 0 1000 true true).tmrRun = true ∧
    RampInv (ramp 5 0 .dec 5 9 true true) ∧ (ramp 5 0 .dec 5 9 true true).tmrRun = true := by decide

theorem witness_AnEffectiveTickEndsInsideTheBounds :
    RampInv (ramp 5 10 .acc 7 1000 true true) ∧ (ramp 5 10 .acc 7 1000 true true).tmrRun = true ∧
    (ramp 5 10 .acc 7 1000 true true).rgBoundsEn = true ∧
    seen rampView (exec .tick (ramp 5 10 .acc 7 1000 true true)) = some (7, 10, .acc, false) := by decide

theorem witness_VelocitiesExactlyAtEffectiveTicks :
    ((ramp 0 5 .acc 0 9 true true).tmrRun = true ∧
      seen State.outputs (exec .tick (ramp 0 5 .acc 0 9 true true)) = some ([] ++ [.vel 1#16, .response .timer .ok 0#64])) ∧
    (t0.tmrRun = false ∧ seen State.outputs (exec .tick t0) = some ([] ++ [.response .timer .ignored 0#64])) := by decide

theorem witness_ARampTakesExactlyItsDistanceInTicks :
    RampInv (ramp 0 0 .acc 0 1000 true false) ∧ (ramp 0 0 .acc 0 1000 true false).rgConfigured = true ∧
    seen rampView (exec (.rgSett 3#16) (ramp 0 0 .acc 0 1000 true false)) = some (0, 3, .acc, true) := by decide

theorem witness_SettIsIdempotentAfterCompletion :
    RampInv (ramp 0 0 .acc 0 1000 true false) ∧ (ramp 0 0 .acc 0 1000 true false).rgConfigured = true ∧
    seen State.tmrRun (execAll (.rgSett 2#16 :: ticks 2) (ramp 0 0 .acc 0 1000 true false)) = some false := by decide

theorem witness_OnlySettChangesThePeriod :
    (∀ i ∈ [Instr.rgCfg 250#16 250#16 0#16 9#16 true, .tick], ∀ v, i ≠ .rgSett v) ∧
    ∃ t, execAll [.rgCfg 250#16 250#16 0#16 9#16 true, .tick] (ramp 0 5 .acc 0 9 true true) = .next t := by
  refine ⟨?_, _, rfl⟩
  intro i hi v
  simp only [List.mem_cons, List.not_mem_nil, or_false] at hi
  rcases hi with rfl | rfl <;> simp

theorem witness_NothingMovesBeforeConfiguration :
    RampInv t0 ∧ t0.rgConfigured = false ∧
    (∀ i ∈ [Instr.rgSett 5#16, .rgCfg 0#16 5#16 1#16 2#16 true, .tick], ∀ accel decel mn mx be,
      i = .rgCfg accel decel mn mx be → accel = 0#16 ∨ decel = 0#16 ∨ mn.toInt > mx.toInt) ∧
    ∃ t, execAll [.rgSett 5#16, .rgCfg 0#16 5#16 1#16 2#16 true, .tick] t0 = .next t := by
  refine ⟨by decide, rfl, ?_, _, rfl⟩
  intro i hi accel decel mn mx be h
  simp only [List.mem_cons, List.not_mem_nil, or_false] at hi
  rcases hi with rfl | rfl | rfl
  · cases h
  · simp only [Instr.rgCfg.injEq] at h
    exact .inl h.1.symm
  · cases h

end Sys2Proof.Tests
end

section
/-!
PROOFS. From the word of an operation to the operation that is performed. A row is found by its opcode alone, since every
mask keeps the opcode field and every row has its own opcode; hence the decoder gives back what was encoded, and a step
performs it.
-/

namespace Sys2Proof.Laws

open Sys2Proof.Machine

/-! ## A word has at most one row -/

/-- Every mask keeps the opcode field, so a word of a row has the row's opcode (30_encoding.md R91). -/
theorem opcodeOf_eq_of_holds {r : Row} {w : EventWord} (hmem : r ∈ opcodeMap) (h : r.holds w = true) :
    opcodeOf w = opcodeOf r.pattern := by
  have hkeep : ∀ q ∈ opcodeMap, opcodeOf q.mask = BitVec.allOnes 4 := by decide
  have hmasked : w &&& r.mask = r.pattern := by simpa [Row.holds] using h
  calc opcodeOf w = opcodeOf w &&& opcodeOf r.mask := by rw [hkeep r hmem, BitVec.and_allOnes]
    _ = opcodeOf (w &&& r.mask) := BitVec.extractLsb'_and.symm
    _ = opcodeOf r.pattern := by rw [hmasked]

/-- The rows have different opcodes, so at most one row matches a word (30_encoding.md R92 step 1). -/
theorem row_eq_of_holds {r q : Row} {w : EventWord} (hr : r ∈ opcodeMap) (hq : q ∈ opcodeMap)
    (hrw : r.holds w = true) (hqw : q.holds w = true) : r = q := by
  have hinj : ∀ a ∈ opcodeMap, ∀ b ∈ opcodeMap, opcodeOf a.pattern = opcodeOf b.pattern → a = b := by decide
  exact hinj r hr q hq ((opcodeOf_eq_of_holds hr hrw).symm.trans (opcodeOf_eq_of_holds hq hqw))

/-- The search of the opcode map finds exactly the row that the word matches. -/
theorem findRow_eq_some_iff {r : Row} {w : EventWord} :
    findRow w = some r ↔ r ∈ opcodeMap ∧ r.holds w = true := by
  constructor
  · intro h
    exact ⟨List.mem_of_find?_eq_some h, List.find?_some (p := fun q : Row => q.holds w) h⟩
  · rintro ⟨hmem, hholds⟩
    cases hfind : findRow w with
    | none => exact absurd hholds (List.find?_eq_none.mp hfind r hmem)
    | some q =>
      have hq : q.holds w = true := List.find?_some (p := fun q : Row => q.holds w) hfind
      rw [row_eq_of_holds (List.mem_of_find?_eq_some hfind) hmem hq hholds]

/-! ## Decoding the word of an operation -/

theorem encode_matches_row (i : Instr) : EncodeMatchesRow.Statement i := by
  cases i with
  | crcInit => exact EncodeMatchesRow.crcInit
  | crcByte b => exact EncodeMatchesRow.crcByte b
  | crcRead => exact EncodeMatchesRow.crcRead
  | rxByte b => exact EncodeMatchesRow.rxByte b
  | stPop => exact EncodeMatchesRow.stPop
  | stLen => exact EncodeMatchesRow.stLen
  | stOvf => exact EncodeMatchesRow.stOvf
  | rgCfg accel decel min max be => exact EncodeMatchesRow.rgCfg accel decel min max be
  | rgSett t => exact EncodeMatchesRow.rgSett t
  | rgCur => exact EncodeMatchesRow.rgCur
  | rgTgt => exact EncodeMatchesRow.rgTgt
  | tick => exact EncodeMatchesRow.tick

@[simp] theorem findRow_encode (i : Instr) : findRow (encode i) = some (rowOf i) := by
  obtain ⟨hmem, hholds, -⟩ := encode_matches_row i
  exact findRow_eq_some_iff.mpr ⟨hmem, hholds⟩

/-- Format B carries its operand in bits 15 to 8 (30_encoding.md R88). -/
theorem byteOf_encodeB (op : BitVec 4) (b : Byte) : byteOf (encodeB op b) = b := by
  change (0#56 ++ b ++ 0#4 ++ op : BitVec (56 + 8 + 4 + 4)).extractLsb' 8 8 = b
  simp (disch := decide) only [BitVec.extractLsb'_append_eq_of_le, BitVec.extractLsb'_append_eq_right, Nat.reduceSub]

/-- Format H carries its operand in bits 23 to 8 (30_encoding.md R89). -/
theorem imm16Of_encodeH (op : BitVec 4) (t : Half) : imm16Of (encodeH op t) = t := by
  change (0#48 ++ t ++ 0#4 ++ op : BitVec (48 + 16 + 4 + 4)).extractLsb' 8 16 = t
  simp (disch := decide) only [BitVec.extractLsb'_append_eq_of_le, BitVec.extractLsb'_append_eq_right, Nat.reduceSub]

section FormatC

/-! Format C carries five operands (30_encoding.md R90). Its word is written with the width of each part, so that the
library's lemmas on `++` see where one part ends. -/

variable (op : BitVec 4) (accel decel : Half) (min max : Velocity) (be : Bool)

/-- The word of format C over the sum of the widths of its parts. -/
def partsC : BitVec (16 + 16 + 16 + 16 + 3 + 1 + 4) :=
  max ++ min ++ decel ++ accel ++ 0#3 ++ BitVec.ofBool be ++ op

theorem extractLsb'_encodeC (start len : Nat) : (encodeC op accel decel min max be).extractLsb' start len =
    (partsC op accel decel min max be).extractLsb' start len := rfl

theorem getLsbD_encodeC (k : Nat) :
    (encodeC op accel decel min max be).getLsbD k = (partsC op accel decel min max be).getLsbD k := rfl

theorem accelOf_encodeC : accelOf (encodeC op accel decel min max be) = accel := by
  simp (disch := decide) only [accelOf, extractLsb'_encodeC, partsC, BitVec.extractLsb'_append_eq_of_le,
    BitVec.extractLsb'_append_eq_right, Nat.reduceSub]

theorem decelOf_encodeC : decelOf (encodeC op accel decel min max be) = decel := by
  simp (disch := decide) only [decelOf, extractLsb'_encodeC, partsC, BitVec.extractLsb'_append_eq_of_le,
    BitVec.extractLsb'_append_eq_right, Nat.reduceSub]

theorem minOf_encodeC : minOf (encodeC op accel decel min max be) = min := by
  simp (disch := decide) only [minOf, extractLsb'_encodeC, partsC, BitVec.extractLsb'_append_eq_of_le,
    BitVec.extractLsb'_append_eq_right, Nat.reduceSub]

theorem maxOf_encodeC : maxOf (encodeC op accel decel min max be) = max := by
  simp (disch := decide) only [maxOf, extractLsb'_encodeC, partsC, BitVec.extractLsb'_append_eq_of_le,
    BitVec.extractLsb'_eq_self, Nat.reduceSub]

theorem beOf_encodeC : beOf (encodeC op accel decel min max be) = be := by
  simp only [beOf, getLsbD_encodeC, partsC, BitVec.getLsbD_append, Nat.reduceLT, Nat.reduceSub, decide_true,
    if_true, if_false, BitVec.getLsbD_ofBool, Bool.true_and]

end FormatC

/-- The operands read from an operation's word are the operation's own (30_encoding.md R92 step 4). -/
@[simp] theorem extract_encode (i : Instr) : (rowOf i).op.extract (encode i) = i := by
  cases i with
  | crcByte b => exact congrArg Instr.crcByte (byteOf_encodeB _ b)
  | rxByte b => exact congrArg Instr.rxByte (byteOf_encodeB _ b)
  | rgCfg accel decel min max be =>
    simp only [rowOf, encode, Op.extract, accelOf_encodeC, decelOf_encodeC, minOf_encodeC, maxOf_encodeC, beOf_encodeC]
  | rgSett t => exact congrArg Instr.rgSett (imm16Of_encodeH _ t)
  | crcInit | crcRead | stPop | stLen | stOvf | rgCur | rgTgt | tick => rfl

/-- Decoding is a left inverse of encoding. -/
@[simp] theorem decode_encode (i : Instr) : decode (encode i) = .operation i := by
  simp [decode]

/-- At any port, the word of an operation is the operation if the port is its own, and illegal otherwise
(30_encoding.md R92, R94). -/
theorem decodeAt_encode (i : Instr) (p : Port) :
    decodeAt p (encode i) = if i.port = p then .operation i else .illegal .wrongPort := by
  obtain ⟨-, -, hport⟩ := encode_matches_row i
  simp [decodeAt, hport]

@[simp] theorem portOf_encode (i : Instr) : portOf (encode i) = i.port := by
  simp [portOf]

/-! ## The step takes an event word and performs its operation -/

theorem performOp_of_decodeAt {p : Port} {w : EventWord} {i : Instr} (h : decodeAt p w = .operation i) (s : State) :
    performOp p w s = exec i s := by
  simp only [performOp, h]

theorem step_of_inputs_cons {s : State} {a : Arrival} {rest : List Arrival} (h : s.inputs = a :: rest) :
    step s = perform a (s.setInputs rest).clearOutputs := by
  simp only [step, h]

theorem step_op {s : State} {p : Port} {w : EventWord} {rest : List Arrival} {i : Instr}
    (hin : s.inputs = .op p w :: rest) (hdec : decodeAt p w = .operation i) :
    step s = exec i (s.setInputs rest).clearOutputs :=
  (step_of_inputs_cons hin).trans (performOp_of_decodeAt hdec _)

/-- Placing a 72-bit event word puts it, at the port of its operation, before what is already waiting. -/
@[simp] theorem withFetchWord_toNat (s : State) (w : EventWord) :
    s.withFetchWord 72 w.toNat = s.setInputs (.op (portOf w) w :: s.inputs) := by
  simp only [State.withFetchWord, Nat.mod_eq_of_lt w.isLt, BitVec.ofNat_toNat, BitVec.setWidth_eq]

/-- Settles O7. -/
theorem stepPerformsTheDecodedOperation : Obligations.StepPerformsTheDecodedOperation := by
  intro s p w rest i hin _ hdec
  exact step_op hin hdec

/-- Settles O8: the placed word is the head of the inputs, at the port of its operation, and decodes to that operation. -/
theorem thePlacedWordIsPerformedNext : Obligations.ThePlacedWordIsPerformedNext := by
  intro i s
  rw [withFetchWord_toNat, portOf_encode]
  have hdec : decodeAt i.port (encode i) = .operation i := by rw [decodeAt_encode, if_pos rfl]
  have hin : (s.setInputs (.op i.port (encode i) :: s.inputs)).inputs = .op i.port (encode i) :: s.inputs :=
    s.setInputs_inputs _
  exact step_op hin hdec

end Sys2Proof.Laws
end

section
/-!
PROOFS. A clock edge without reset is a sequence of arrivals: each pin group that offers an operation is the same as that
operation's event word arriving at its port, and the three follow one another in the order timer, host, rx.
-/

namespace Sys2Proof.Laws

open Sys2Proof.Machine

/-! ## Sequences of arrivals -/

@[simp] theorem andThen_next_right (r : Result) : andThen r .next = r := by
  cases r <;> rfl

/-- Two sequences of arrivals one after the other (20_memory.md R66, R68). -/
theorem performAll_append (a b : List Arrival) (s : State) :
    performAll (a ++ b) s = andThen (performAll a s) (performAll b) := by
  induction a generalizing s with
  | nil => rfl
  | cons x rest ih =>
    rw [List.cons_append, performAll_cons, performAll_cons, andThen_andThen]
    exact congrArg (andThen (perform x s)) (funext ih)

theorem performAll_singleton (a : Arrival) (s : State) : performAll [a] s = perform a s :=
  andThen_next_right (perform a s)

/-- An arrival that may or may not be offered. -/
theorem performAll_ite (offered : Bool) (a : Arrival) (s : State) :
    performAll (if offered then [a] else []) s = if offered then perform a s else .next s := by
  cases offered with
  | true => exact performAll_singleton a s
  | false => rfl

/-- The word of an operation, arriving at the operation's own port, is the operation. -/
theorem perform_op_encode (i : Instr) (s : State) : perform (.op i.port (encode i)) s = exec i s :=
  performOp_of_decodeAt (by rw [decodeAt_encode, if_pos rfl]) s

/-! ## What each group of pins offers -/

/-- The timer pin offers the event word of TICK (10_state.md R45; 30_encoding.md R91). -/
theorem performTickPin_eq_performAll (pins : InPins) (s : State) :
    performTickPin pins s = performAll (if pins.tick then [.op .timer 0x00000000000000000C#72] else []) s := by
  have htick : perform (.op .timer 0x00000000000000000C#72) s = exec .tick s := perform_op_encode .tick s
  rw [performAll_ite, htick, performTickPin]

/-- The host pins offer the event word they carry (10_state.md R43). -/
theorem performHostPins_eq_performAll (pins : InPins) (s : State) :
    performHostPins pins s = performAll (if pins.hValid then [.op .host pins.hWord] else []) s := by
  rw [performAll_ite, perform, performHostPins]

/-- The rx pins offer the event word of RX.BYTE with the byte they carry (10_state.md R44; 30_encoding.md R88, R91). -/
theorem performRxPins_eq_performAll (pins : InPins) (s : State) :
    performRxPins pins s =
      performAll (if pins.rxValid then [.op .rx (0#56 ++ pins.rxData ++ 0#4 ++ 0x4#4)] else []) s := by
  have hrx : perform (.op .rx (0#56 ++ pins.rxData ++ 0#4 ++ 0x4#4)) s = exec (.rxByte pins.rxData) s :=
    perform_op_encode (.rxByte pins.rxData) s
  rw [performAll_ite, hrx, performRxPins]

/-! ## The clock edge -/

/-- Without reset, an edge performs what the three groups of pins offer, in the order of 20_memory.md R67. -/
theorem performEdge_of_not_rst {pins : InPins} (h : pins.rst = false) (s : State) :
    performEdge pins s = andThen (andThen (performTickPin pins s) (performHostPins pins)) (performRxPins pins) := by
  simp [performEdge, h]

/-- Settles O11: each group of pins is the arrival of its event word, and a sequence of arrivals is performed part by
part. -/
theorem aClockEdgePerformsTimerThenHostThenRx : Obligations.AClockEdgePerformsTimerThenHostThenRx := by
  intro s pins hrst
  rw [performEdge_of_not_rst hrst, performTickPin_eq_performAll, funext (performHostPins_eq_performAll pins),
    funext (performRxPins_eq_performAll pins), performAll_append, performAll_append]

end Sys2Proof.Laws
end

section
/-!
PROOFS. The word of an operation as fields and as a number. A word is the parts of its format one after another, so a
masked word of a row has the row's opcode and no reserved bit set; hence every word that decodes is the word of the
operation it decodes to, and a word with a reserved bit or an unassigned opcode decodes to none.
-/

namespace Sys2Proof.Laws

open Sys2Proof.Machine

/-! ## Words part by part -/

/-- A word is two parts exactly when its high and its low bits are those parts. -/
theorem eq_append_iff {m n : Nat} {w : BitVec (m + n)} {a : BitVec m} {b : BitVec n} :
    w = a ++ b ↔ w.extractLsb' n m = a ∧ w.extractLsb' 0 n = b := by
  constructor
  · rintro rfl
    exact ⟨BitVec.extractLsb'_append_eq_left, BitVec.extractLsb'_append_eq_right⟩
  · rintro ⟨rfl, rfl⟩
    exact BitVec.extractLsb'_append_extractLsb'.symm

theorem toNat_append_eq_add {m n : Nat} (a : BitVec m) (b : BitVec n) : (a ++ b).toNat = b.toNat + 2 ^ n * a.toNat := by
  rw [BitVec.toNat_append, ← Nat.shiftLeft_add_eq_or_of_lt b.isLt, Nat.shiftLeft_eq, Nat.mul_comm, Nat.add_comm]

/-- Bits of a part of a word are bits of the word. -/
theorem extractLsb'_extractLsb' {k m start len i : Nat} (w : BitVec k) (h : i + len ≤ m) :
    (w.extractLsb' start m).extractLsb' i len = w.extractLsb' (start + i) len := by
  ext j hj
  have hlt : i + j < m := by omega
  simp [hlt, Nat.add_assoc]

/-- A word is four parts, as the formats write it, exactly when its bits are those parts. -/
theorem eq_append_four_iff {k₁ k₂ k₃ k₄ : Nat} {w : BitVec (k₁ + k₂ + k₃ + k₄)} {a : BitVec k₁} {b : BitVec k₂}
    {c : BitVec k₃} {d : BitVec k₄} : w = a ++ b ++ c ++ d ↔
      w.extractLsb' (k₄ + k₃ + k₂) k₁ = a ∧ w.extractLsb' (k₄ + k₃) k₂ = b ∧ w.extractLsb' k₄ k₃ = c ∧
        w.extractLsb' 0 k₄ = d := by
  rw [eq_append_iff, eq_append_iff, eq_append_iff]
  simp (disch := omega) only [extractLsb'_extractLsb', Nat.add_zero, Nat.add_assoc, and_assoc]

/-! ### Format N (30_encoding.md R87) -/

theorem toNat_encodeN (op : BitVec 4) : (encodeN op).toNat = op.toNat := by
  change (0#68 ++ op : BitVec (68 + 4)).toNat = op.toNat
  rw [toNat_append_eq_add, BitVec.toNat_zero, Nat.mul_zero, Nat.add_zero]

/-- The mask of format N leaves no operand bit. -/
theorem and_maskN (w : EventWord) : w &&& maskN = w := BitVec.and_allOnes

/-! ### Format B (30_encoding.md R88) -/

theorem eq_encodeB_iff {w : EventWord} {op : BitVec 4} {b : Byte} :
    w = encodeB op b ↔ w.extractLsb' 16 56 = 0#56 ∧ byteOf w = b ∧ w.extractLsb' 4 4 = 0#4 ∧ opcodeOf w = op :=
  eq_append_four_iff (k₁ := 56) (k₂ := 8) (k₃ := 4) (k₄ := 4)

theorem toNat_encodeB (op : BitVec 4) (b : Byte) : (encodeB op b).toNat = op.toNat + 2 ^ 8 * b.toNat := by
  change (0#56 ++ b ++ 0#4 ++ op : BitVec (56 + 8 + 4 + 4)).toNat = _
  simp only [toNat_append_eq_add, BitVec.toNat_zero]
  omega

/-- A word has the opcode `op` and no reserved bit of format B set exactly when it is `op` with its own operand. -/
theorem and_maskB_eq_iff {w : EventWord} {op : BitVec 4} :
    w &&& maskB = encodeB op 0#8 ↔ w = encodeB op (byteOf w) := by
  have hhigh : maskB.extractLsb' 16 56 = BitVec.allOnes 56 := by decide
  have hbyte : maskB.extractLsb' 8 8 = 0#8 := by decide
  have hlow : maskB.extractLsb' 4 4 = BitVec.allOnes 4 := by decide
  have hop : maskB.extractLsb' 0 4 = BitVec.allOnes 4 := by decide
  simp only [eq_encodeB_iff, byteOf, opcodeOf, BitVec.extractLsb'_and, hhigh, hbyte, hlow, hop, BitVec.and_allOnes,
    BitVec.and_zero, true_and]

/-! ### Format H (30_encoding.md R89) -/

theorem eq_encodeH_iff {w : EventWord} {op : BitVec 4} {t : Half} :
    w = encodeH op t ↔ w.extractLsb' 24 48 = 0#48 ∧ imm16Of w = t ∧ w.extractLsb' 4 4 = 0#4 ∧ opcodeOf w = op :=
  eq_append_four_iff (k₁ := 48) (k₂ := 16) (k₃ := 4) (k₄ := 4)

theorem toNat_encodeH (op : BitVec 4) (t : Half) : (encodeH op t).toNat = op.toNat + 2 ^ 8 * t.toNat := by
  change (0#48 ++ t ++ 0#4 ++ op : BitVec (48 + 16 + 4 + 4)).toNat = _
  simp only [toNat_append_eq_add, BitVec.toNat_zero]
  omega

/-- A word has the opcode `op` and no reserved bit of format H set exactly when it is `op` with its own operand. -/
theorem and_maskH_eq_iff {w : EventWord} {op : BitVec 4} :
    w &&& maskH = encodeH op 0#16 ↔ w = encodeH op (imm16Of w) := by
  have hhigh : maskH.extractLsb' 24 48 = BitVec.allOnes 48 := by decide
  have himm : maskH.extractLsb' 8 16 = 0#16 := by decide
  have hlow : maskH.extractLsb' 4 4 = BitVec.allOnes 4 := by decide
  have hop : maskH.extractLsb' 0 4 = BitVec.allOnes 4 := by decide
  simp only [eq_encodeH_iff, imm16Of, opcodeOf, BitVec.extractLsb'_and, hhigh, himm, hlow, hop, BitVec.and_allOnes,
    BitVec.and_zero, true_and]

/-! ### Format C (30_encoding.md R90) -/

theorem eq_encodeC_iff {w : EventWord} {op : BitVec 4} {accel decel : Half} {min max : Velocity} {be : Bool} :
    w = encodeC op accel decel min max be ↔
      (maxOf w = max ∧ minOf w = min ∧ decelOf w = decel ∧ accelOf w = accel) ∧
        w.extractLsb' 5 3 = 0#3 ∧ w.extractLsb' 4 1 = BitVec.ofBool be ∧ opcodeOf w = op := by
  have hparts : w = encodeC op accel decel min max be ↔ w.extractLsb' 8 64 = max ++ min ++ decel ++ accel ∧
      w.extractLsb' 5 3 = 0#3 ∧ w.extractLsb' 4 1 = BitVec.ofBool be ∧ opcodeOf w = op :=
    eq_append_four_iff (k₁ := 64) (k₂ := 3) (k₃ := 1) (k₄ := 4)
  have hoperands : w.extractLsb' 8 64 = max ++ min ++ decel ++ accel ↔
      maxOf w = max ∧ minOf w = min ∧ decelOf w = decel ∧ accelOf w = accel := by
    refine (eq_append_four_iff (k₁ := 16) (k₂ := 16) (k₃ := 16) (k₄ := 16)).trans ?_
    simp (disch := decide) only [extractLsb'_extractLsb']
    rfl
  rw [hparts, hoperands]

theorem toNat_encodeC (op : BitVec 4) (accel decel : Half) (min max : Velocity) (be : Bool) :
    (encodeC op accel decel min max be).toNat = op.toNat + 2 ^ 4 * be.toNat + 2 ^ 8 * accel.toNat + 2 ^ 24 * decel.toNat
      + 2 ^ 40 * min.toNat + 2 ^ 56 * max.toNat := by
  change (partsC op accel decel min max be).toNat = _
  simp only [partsC, toNat_append_eq_add, BitVec.toNat_zero, BitVec.toNat_ofBool]
  omega

/-- Bit 4 of a word as a part of format C. -/
theorem extractLsb'_be (w : EventWord) : w.extractLsb' 4 1 = BitVec.ofBool (beOf w) := by
  ext i hi
  obtain rfl : i = 0 := by omega
  simp [beOf]

/-- A word has the opcode `op` and no reserved bit of format C set exactly when it is `op` with its own operands. -/
theorem and_maskC_eq_iff {w : EventWord} {op : BitVec 4} :
    w &&& maskC = encodeC op 0#16 0#16 0#16 0#16 false ↔
      w = encodeC op (accelOf w) (decelOf w) (minOf w) (maxOf w) (beOf w) := by
  have hmax : maskC.extractLsb' 56 16 = 0#16 := by decide
  have hmin : maskC.extractLsb' 40 16 = 0#16 := by decide
  have hdecel : maskC.extractLsb' 24 16 = 0#16 := by decide
  have haccel : maskC.extractLsb' 8 16 = 0#16 := by decide
  have hbe : maskC.extractLsb' 4 1 = BitVec.ofBool false := by decide
  have hreserved : maskC.extractLsb' 5 3 = BitVec.allOnes 3 := by decide
  have hop : maskC.extractLsb' 0 4 = BitVec.allOnes 4 := by decide
  have hand : w.extractLsb' 4 1 &&& BitVec.ofBool false = BitVec.ofBool false := BitVec.and_zero
  simp only [eq_encodeC_iff, ← extractLsb'_be, maxOf, minOf, decelOf, accelOf, opcodeOf, BitVec.extractLsb'_and, hmax,
    hmin, hdecel, haccel, hbe, hreserved, hop, hand, BitVec.and_allOnes, BitVec.and_zero, true_and]

/-! ## Every word that decodes is the word of its operation -/

theorem holds_iff {r : Row} {w : EventWord} : r.holds w = true ↔ w &&& r.mask = r.pattern := beq_iff_eq

/-- A row of the map is the row of the operation it gives, whatever the operands. -/
theorem rowOf_extract {r : Row} (hmem : r ∈ opcodeMap) (w : EventWord) : rowOf (r.op.extract w) = r := by
  have hrows : ∀ q ∈ opcodeMap, rowOf (q.op.extract w) = q := by
    simp [opcodeMap, rowOf, Op.extract]
  exact hrows r hmem

/-- A word with the opcode of `op` and no reserved bit set is the word of the operation read from it, since the bits
outside the mask are the operands that are read (30_encoding.md R91, R92 step 4). -/
theorem encode_extract_of_masked {w : EventWord} (op : Op)
    (h : w &&& (rowOf (op.extract w)).mask = (rowOf (op.extract w)).pattern) : encode (op.extract w) = w := by
  cases op with
  | crcByte | rxByte => exact (and_maskB_eq_iff.mp h).symm
  | rgSett => exact (and_maskH_eq_iff.mp h).symm
  | rgCfg => exact (and_maskC_eq_iff.mp h).symm
  | crcInit | crcRead | stPop | stLen | stOvf | rgCur | rgTgt | tick => exact h.symm.trans (and_maskN w)

theorem encode_extract_of_holds {r : Row} {w : EventWord} (hmem : r ∈ opcodeMap) (h : r.holds w = true) :
    encode (r.op.extract w) = w :=
  encode_extract_of_masked r.op (by rw [rowOf_extract hmem]; exact holds_iff.mp h)

/-- An operation is decoded from its own word and from no other. -/
theorem decode_eq_operation_iff {w : EventWord} {i : Instr} : decode w = .operation i ↔ w = encode i := by
  constructor
  · intro h
    unfold decode at h
    split at h
    next => cases h
    next r hrow =>
      cases h
      obtain ⟨hmem, hholds⟩ := findRow_eq_some_iff.mp hrow
      exact (encode_extract_of_holds hmem hholds).symm
  · rintro rfl
    exact decode_encode i

theorem decode_eq_operation_iff_toNat {w : EventWord} {i : Instr} {n : Nat} (hn : (encode i).toNat = n) :
    decode w = .operation i ↔ w.toNat = n := by
  rw [decode_eq_operation_iff, ← hn, BitVec.toNat_inj]

/-! ## Decoding at a port -/

theorem decodeAt_port_encode (i : Instr) : decodeAt i.port (encode i) = .operation i := by
  rw [decodeAt_encode, if_pos rfl]

theorem decodeAt_encode_of_ne {i : Instr} {p : Port} (h : i.port ≠ p) :
    decodeAt p (encode i) = .illegal .wrongPort := by
  rw [decodeAt_encode, if_neg h]

/-- A word of no row is illegal at every port (30_encoding.md R92 step 2). -/
theorem decodeAt_of_no_row {w : EventWord} (h : ∀ r ∈ opcodeMap, w &&& r.mask ≠ r.pattern) (p : Port) :
    decodeAt p w = .illegal (noRow w) := by
  have hnone : findRow w = none := List.find?_eq_none.mpr fun r hmem hholds => h r hmem (holds_iff.mp hholds)
  simp only [decodeAt, hnone]

/-- A word of a row is its operation at the port of the row, and illegal elsewhere (30_encoding.md R92 steps 3, 4). -/
theorem decodeAt_of_row {r : Row} {w : EventWord} (hmem : r ∈ opcodeMap) (h : w &&& r.mask = r.pattern) (p : Port) :
    decodeAt p w = if r.port = p then .operation (r.op.extract w) else .illegal .wrongPort := by
  have hrow : findRow w = some r := findRow_eq_some_iff.mpr ⟨hmem, holds_iff.mpr h⟩
  simp only [decodeAt, hrow]

/-- The check of the port only takes operations away. -/
theorem decode_of_decodeAt {p : Port} {w : EventWord} {i : Instr} (h : decodeAt p w = .operation i) :
    decode w = .operation i := by
  unfold decodeAt at h
  unfold decode
  cases hrow : findRow w with
  | none => simp [hrow] at h
  | some r =>
    by_cases hport : r.port = p
    · simpa [hrow, hport] using h
    · simp [hrow, hport] at h

/-- An illegal word changes nothing and is answered ERR_ILLEGAL (30_encoding.md R93). -/
theorem performOp_of_illegal {p : Port} {w : EventWord} {why : Illegal} (h : decodeAt p w = .illegal why) (s : State) :
    performOp p w s = .next { s with outputs := s.outputs ++ [.response p .errIllegal 0#64] } := by
  rw [performOp, h]
  rfl

/-! ## Words with a reserved bit or an unassigned opcode -/

/-- An unassigned opcode, or a reserved bit of the opcode's format (30_encoding.md R87 to R90, R93). -/
abbrev IllegalFields (w : EventWord) : Prop :=
  opcodeOf w ∈ [0x0#4, 0xD#4, 0xE#4, 0xF#4] ∨
  (opcodeOf w ∈ [0x1#4, 0x3#4, 0x5#4, 0x6#4, 0x7#4, 0xA#4, 0xB#4, 0xC#4] ∧ w.extractLsb' 4 68 ≠ 0#68) ∨
  (opcodeOf w ∈ [0x2#4, 0x4#4] ∧ (w.extractLsb' 4 4 ≠ 0#4 ∨ w.extractLsb' 16 56 ≠ 0#56)) ∨
  (opcodeOf w = 0x9#4 ∧ (w.extractLsb' 4 4 ≠ 0#4 ∨ w.extractLsb' 24 48 ≠ 0#48)) ∨
  (opcodeOf w = 0x8#4 ∧ w.extractLsb' 5 3 ≠ 0#3)

theorem not_illegalFields_encodeN :
    ∀ op ∈ [0x1#4, 0x3#4, 0x5#4, 0x6#4, 0x7#4, 0xA#4, 0xB#4, 0xC#4], ¬ IllegalFields (encodeN op) := by decide

theorem not_illegalFields_encodeB {op : BitVec 4} (hop : op = 0x2#4 ∨ op = 0x4#4) (b : Byte) :
    ¬ IllegalFields (encodeB op b) := by
  obtain ⟨hhigh, -, hlow, hopcode⟩ := eq_encodeB_iff.mp (Eq.refl (encodeB op b))
  obtain rfl | rfl := hop <;> simp [IllegalFields, hhigh, hlow, hopcode]

theorem not_illegalFields_encodeH (t : Half) : ¬ IllegalFields (encodeH 0x9#4 t) := by
  obtain ⟨hhigh, -, hlow, hopcode⟩ := eq_encodeH_iff.mp (Eq.refl (encodeH 0x9#4 t))
  simp [IllegalFields, hhigh, hlow, hopcode]

theorem not_illegalFields_encodeC (accel decel : Half) (min max : Velocity) (be : Bool) :
    ¬ IllegalFields (encodeC 0x8#4 accel decel min max be) := by
  obtain ⟨-, hreserved, -, hopcode⟩ := eq_encodeC_iff.mp (Eq.refl (encodeC 0x8#4 accel decel min max be))
  simp [IllegalFields, hreserved, hopcode]

theorem not_illegalFields_encode (i : Instr) : ¬ IllegalFields (encode i) := by
  cases i with
  | crcByte b => exact not_illegalFields_encodeB (.inl rfl) b
  | rxByte b => exact not_illegalFields_encodeB (.inr rfl) b
  | rgSett t => exact not_illegalFields_encodeH t
  | rgCfg accel decel min max be => exact not_illegalFields_encodeC accel decel min max be
  | crcInit | crcRead | stPop | stLen | stOvf | rgCur | rgTgt | tick => exact not_illegalFields_encodeN _ (by decide)

/-! ## The statements -/

/-- Settles O2: decoding is a left inverse of encoding, and the port check compares with the operation's own port. -/
theorem encodedOperationsDecodeBackAtTheirPort : Obligations.EncodedOperationsDecodeBackAtTheirPort := by
  intro i p
  rw [decodeAt_encode]
  exact ⟨fun hwf => if_pos hwf, fun hwf => if_neg hwf⟩

/-- Settles O3: a word decodes to an operation exactly when it is the operation's word, whose number is the sum of its
format's fields. -/
theorem wordsAreTheNumbersOfTheirFormats : Obligations.WordsAreTheNumbersOfTheirFormats := by
  intro w
  exact ⟨decode_eq_operation_iff_toNat (toNat_encodeN 0x1#4),
    fun b => decode_eq_operation_iff_toNat (toNat_encodeB 0x2#4 b),
    decode_eq_operation_iff_toNat (toNat_encodeN 0x3#4),
    fun b => decode_eq_operation_iff_toNat (toNat_encodeB 0x4#4 b),
    decode_eq_operation_iff_toNat (toNat_encodeN 0x5#4),
    decode_eq_operation_iff_toNat (toNat_encodeN 0x6#4),
    decode_eq_operation_iff_toNat (toNat_encodeN 0x7#4),
    fun accel decel min max be => decode_eq_operation_iff_toNat (toNat_encodeC 0x8#4 accel decel min max be),
    fun t => decode_eq_operation_iff_toNat (toNat_encodeH 0x9#4 t),
    decode_eq_operation_iff_toNat (toNat_encodeN 0xA#4),
    decode_eq_operation_iff_toNat (toNat_encodeN 0xB#4),
    decode_eq_operation_iff_toNat (toNat_encodeN 0xC#4)⟩

/-- Settles O4: the row a word matches is the only one, so what the decoder finds is that row or, with no row, nothing. -/
theorem decodingFollowsTheOpcodeMap : Obligations.DecodingFollowsTheOpcodeMap := by
  intro s p w
  refine ⟨?unique, ?noRow, ?otherPort, ?ownPort⟩
  case unique =>
    intro r hr r' hr' h h'
    exact row_eq_of_holds hr hr' (holds_iff.mpr h) (holds_iff.mpr h')
  case noRow =>
    intro h
    exact performOp_of_illegal (decodeAt_of_no_row h p) s
  case otherPort =>
    intro r hr h hport
    exact performOp_of_illegal ((decodeAt_of_row hr h p).trans (if_neg hport)) s
  case ownPort =>
    intro r hr h hport
    exact performOp_of_decodeAt ((decodeAt_of_row hr h p).trans (if_pos hport)) s

/-- Settles O5: a word that is performed is the word of an operation, and none of those has illegal fields. -/
theorem illegalWordsAreRefused : Obligations.IllegalWordsAreRefused := by
  intro s p w (h : IllegalFields w)
  cases hdec : decodeAt p w with
  | operation i =>
    rw [decode_eq_operation_iff.mp (decode_of_decodeAt hdec)] at h
    exact absurd h (not_illegalFields_encode i)
  | illegal why => exact performOp_of_illegal hdec s

/-- Settles O6: at another port the word of an operation is illegal. -/
theorem wordsOnTheWrongPortAreRefused : Obligations.WordsOnTheWrongPortAreRefused := by
  intro s p i hport
  exact performOp_of_illegal (decodeAt_encode_of_ne hport.symm) s

/-- Settles O1: the legal words are the encodings of their operations, written out. -/
theorem writtenOutWordsDecode : Obligations.WrittenOutWordsDecode := by
  have hminusOne : encode (.rgSett (BitVec.ofInt 16 (-1))) = 0x000000000000FFFF09#72 := by decide
  exact ⟨decodeAt_port_encode .crcInit,
    decodeAt_port_encode (.crcByte 0xFF#8),
    decodeAt_port_encode (.rxByte 0x21#8),
    decodeAt_port_encode .stPop,
    decodeAt_port_encode (.rgCfg 1000#16 500#16 0#16 1000#16 true),
    hminusOne ▸ decodeAt_port_encode (.rgSett (BitVec.ofInt 16 (-1))),
    decodeAt_port_encode .tick,
    by decide, by decide,
    decodeAt_encode_of_ne (i := .tick) (p := .host) (by decide)⟩

end Sys2Proof.Laws
end

section
/-!
PROOFS. The CRC block. Its three operations as record updates, and one byte into the accumulator as shifts of a number:
one shift of the register is one shift of its number, so eight shifts are.
-/

namespace Sys2Proof.Laws

open Sys2Proof.Machine

/-- The encoding of an operation is accepted at the operation's port only (30_encoding.md R94). -/
theorem isWordOf_encode (i : Instr) : IsWordOf i.port (encode i) i :=
  ⟨decodeAt_port_encode i, fun _ hq => decodeAt_encode_of_ne hq.symm⟩

/-! ## What the operations do -/

theorem exec_crcInit (s : State) : exec .crcInit s =
    .next { s with crcAcc := s.params.crc.init, outputs := s.outputs ++ [.response .host .ok 0#64] } := rfl

theorem exec_crcByte (b : Byte) (s : State) : exec (.crcByte b) s =
    .next { s with crcAcc := crcStep s.params.crc s.crcAcc b, outputs := s.outputs ++ [.response .host .ok 0#64] } := rfl

theorem exec_crcRead (s : State) : exec .crcRead s = .next { s with
    outputs := s.outputs ++ [.response .host .ok ((crcFinal s.params.crc s.crcAcc).setWidth 64)] } := rfl

/-! ## The shift register as a number (40_crc.md R110) -/

/-- One shift on numbers; `toNat_crcShift` ties it to the model's `crcShift`. -/
def crcShiftNat (poly x : Nat) : Nat := if x.testBit 15 then (2 * x % 65536) ^^^ poly else 2 * x % 65536

theorem toNat_half_shiftLeft_one (x : Half) : (x <<< 1).toNat = 2 * x.toNat % 65536 := by
  rw [BitVec.toNat_shiftLeft, Nat.shiftLeft_eq, pow_one, Nat.mul_comm]

theorem toNat_crcShift (poly x : Half) : (crcShift poly x).toNat = crcShiftNat poly.toNat x.toNat := by
  have hmsb : x.msb = x.toNat.testBit 15 := BitVec.msb_eq_getLsbD_last x
  rw [crcShift, crcShiftNat, hmsb]
  split
  · rw [BitVec.toNat_xor, toNat_half_shiftLeft_one]
  · exact toNat_half_shiftLeft_one x

theorem toNat_crcShifts (poly : Half) (n : Nat) (x : Half) :
    (crcShifts poly n x).toNat = (crcShiftNat poly.toNat)^[n] x.toNat := by
  induction n generalizing x with
  | zero => rfl
  | succ n ih => rw [crcShifts, ih, toNat_crcShift, Function.iterate_succ_apply]

/-! ## One byte into the accumulator (40_crc.md R110) -/

/-- The byte that enters: reversed when `CRC_REFIN`. -/
theorem crcStep_eq_crcShifts (p : CrcParams) (c : Half) (b : Byte) :
    crcStep p c b = crcShifts p.poly 8 (c ^^^ ((if p.refIn then b.reverse else b).setWidth 16 <<< 8)) := rfl

/-- The byte that enters, told by its bits. -/
theorem eq_reflected_byte {b d : Byte} {reflect : Bool}
    (h : ∀ i, i < 8 → d.getLsbD i = if reflect then b.getLsbD (7 - i) else b.getLsbD i) :
    d = if reflect then b.reverse else b := by
  apply BitVec.eq_of_getLsbD_eq
  intro i hi
  rw [h i hi]
  cases reflect with
  | true => rw [if_pos rfl, if_pos rfl, BitVec.getLsbD_reverse, BitVec.getMsbD, decide_eq_true hi, Bool.true_and]
  | false => rfl

/-- A byte on bits 15 to 8 of a half. -/
theorem toNat_byte_shiftLeft_eight (d : Byte) : (d.setWidth 16 <<< 8 : Half).toNat = d.toNat * 256 := by
  have hlt := d.isLt
  rw [BitVec.toNat_shiftLeft, BitVec.toNat_setWidth, Nat.shiftLeft_eq]
  omega

/-! ## The statements -/

/-- Settles O28: one shift of the register is one shift of its number, hence so are eight of them. -/
theorem crcStepIsTheBitSerialAlgorithm : Obligations.CrcStepIsTheBitSerialAlgorithm := by
  intro p c b d hbits
  change (crcStep p c b).toNat = (crcShiftNat p.poly.toNat)^[8] (c.toNat ^^^ (d.toNat * 256))
  rw [crcStep_eq_crcShifts, ← eq_reflected_byte hbits, toNat_crcShifts, BitVec.toNat_xor, toNat_byte_shiftLeft_eight]

/-- Settles O25. -/
theorem crcInitLoadsTheInitialValue : Obligations.CrcInitLoadsTheInitialValue :=
  ⟨isWordOf_encode .crcInit, exec_crcInit⟩

/-- Settles O26. -/
theorem crcByteStepsTheAccumulator : Obligations.CrcByteStepsTheAccumulator :=
  fun b => ⟨isWordOf_encode (.crcByte b), exec_crcByte b⟩

/-- Settles O27: the answer is the final value widened with zeros, so its low 16 bits are those of the final value. -/
theorem crcReadAnswersTheFinalValue : Obligations.CrcReadAnswersTheFinalValue := by
  refine ⟨isWordOf_encode .crcRead, fun s => ⟨_, exec_crcRead s, ?number, ?lowBits, ?highBits⟩⟩
  case number => exact BitVec.toNat_setWidth_of_le (by decide)
  case lowBits =>
    intro i hi
    have hwide : i < 64 := by omega
    rw [BitVec.getLsbD_setWidth, decide_eq_true hwide, Bool.true_and, crcFinal_getLsbD _ _ _ hi]
  case highBits =>
    intro i hi _
    rw [BitVec.getLsbD_setWidth, BitVec.getLsbD_of_ge _ _ hi, Bool.and_false]

end Sys2Proof.Laws
end

section
/-!
PROOFS. What every operation does before it answers, and everything it emits. Each operation is its work on the state
followed by one response at its own port; the work emits timer events, then the acknowledgment byte of a close or the
velocity of an effective tick; and no work but that of RX.BYTE touches the decoder.
-/

namespace Sys2Proof.Laws

open Sys2Proof.Machine

/-! ## An operation is its work and then its response -/

/-- The state an operation leaves before its response; `exec_eq_respond` ties it to `exec`. -/
def workOf : Instr → State → State
  | .crcInit, s => s.setCrcAcc s.params.crc.init
  | .crcByte b, s => s.setCrcAcc (crcStep s.params.crc s.crcAcc b)
  | .rxByte b, s => s.receive b
  | .stPop, s =>
    match s.stQ with
    | [] => s
    | _ :: rest => s.setStQ rest
  | .rgCfg accel decel min max be, s =>
    if configRejected accel decel min max then s
    else s.setConfig (rateToCmp s.params.granularity accel) (rateToCmp s.params.granularity decel) min max be
  | .rgSett t, s => if s.rgConfigured then s.setTargetVelocity t else s
  | .tick, s => if s.tmrRun then s.advance else s
  | .crcRead, s | .stLen, s | .stOvf, s | .rgCur, s | .rgTgt, s => s

/-- Every operation answers once, last and at its own port (00_scope.md R14). -/
theorem exec_eq_respond (i : Instr) (s : State) :
    ∃ st d, exec i s = .next ((workOf i s).respond i.port st d) := by
  cases i with
  | stPop =>
    cases hq : s.stQ with
    | nil => exact ⟨.empty, 0#64, by simp only [exec, execStPop, workOf, hq]; rfl⟩
    | cons head rest => exact ⟨.ok, head, by simp only [exec, execStPop, workOf, hq]; rfl⟩
  | rgCfg accel decel min max be =>
    simp only [exec, execRgCfg, workOf]
    split
    · exact ⟨.errCfg, 0#64, rfl⟩
    · exact ⟨.ok, 0#64, rfl⟩
  | rgSett t =>
    simp only [exec, execRgSett, workOf]
    split
    · exact ⟨.ok, 0#64, rfl⟩
    · exact ⟨.errNocfg, 0#64, rfl⟩
  | tick =>
    simp only [exec, execTick, workOf]
    split
    · exact ⟨.ok, 0#64, rfl⟩
    · exact ⟨.ignored, 0#64, rfl⟩
  | crcInit | crcByte | crcRead | rxByte | stLen | stOvf | rgCur | rgTgt => exact ⟨_, _, rfl⟩

/-- The state after an operation is its work with a response added. -/
theorem eq_respond_of_exec {i : Instr} {s t : State} (h : exec i s = .next t) :
    ∃ st d, t = (workOf i s).respond i.port st d := by
  obtain ⟨st, d, hexec⟩ := exec_eq_respond i s
  exact ⟨st, d, Host.Outcome.next.inj (h.symm.trans hexec)⟩

/-! ## What the operations outside the decoder keep -/

/-- The parameters and the decoder's registers are the same. -/
structure DecoderKept (s t : State) : Prop where
  params : t.params = s.params
  fdState : t.fdState = s.fdState
  fdCount : t.fdCount = s.fdCount
  fdBuf : t.fdBuf = s.fdBuf

theorem DecoderKept.refl (s : State) : DecoderKept s s := ⟨rfl, rfl, rfl, rfl⟩

theorem DecoderKept.trans {s t u : State} (h : DecoderKept s t) (k : DecoderKept t u) : DecoderKept s u :=
  ⟨k.params.trans h.params, k.fdState.trans h.fdState, k.fdCount.trans h.fdCount, k.fdBuf.trans h.fdBuf⟩

theorem setTargetVelocity_keeps_decoder (s : State) (t : Velocity) : DecoderKept s (s.setTargetVelocity t) := by
  rcases setTargetVelocity_cases s t with ⟨-, h⟩ | ⟨-, h⟩ | ⟨-, h⟩ <;> rw [h] <;> exact ⟨rfl, rfl, rfl, rfl⟩

theorem advance_keeps_decoder (s : State) : DecoderKept s s.advance := by
  rcases advance_cases s with ⟨-, h⟩ | ⟨-, h⟩ <;> rw [h] <;> exact ⟨rfl, rfl, rfl, rfl⟩

theorem workOf_keeps_decoder {i : Instr} (hi : blockOf i ≠ .decoder) (s : State) : DecoderKept s (workOf i s) := by
  cases i with
  | rxByte b => exact absurd rfl hi
  | stPop | rgCfg => simp only [workOf]; split <;> exact ⟨rfl, rfl, rfl, rfl⟩
  | rgSett t =>
    simp only [workOf]
    split
    · exact setTargetVelocity_keeps_decoder s t
    · exact .refl s
  | tick =>
    simp only [workOf]
    split
    · exact advance_keeps_decoder s
    · exact .refl s
  | crcInit | crcByte | crcRead | stLen | stOvf | rgCur | rgTgt => exact ⟨rfl, rfl, rfl, rfl⟩

/-- No operation but RX.BYTE writes a decoder register (60_exceptions.md R229). -/
theorem exec_keeps_decoder {i : Instr} {s t : State} (hi : blockOf i ≠ .decoder) (h : exec i s = .next t) :
    DecoderKept s t := by
  obtain ⟨st, d, rfl⟩ := eq_respond_of_exec h
  exact (workOf_keeps_decoder hi s).trans ⟨rfl, rfl, rfl, rfl⟩

/-! ## What an operation emits -/

/-- The three timer events (60_exceptions.md R231). -/
def isTimerEvent : OutEvent → Bool
  | .setPeriod _ | .timerStart | .timerStop => true
  | .response _ _ _ | .ack _ | .vel _ => false

/-- The operation closes a frame: an RX.BYTE in the eighth position of an open frame (41_frame_decoder.md R130 case 4). -/
def closesFrame (i : Instr) (s : State) : Bool := blockOf i == .decoder && s.fdState == .inFrame && s.fdCount == 7#3

/-- The acknowledgment byte for the checksums of a full buffer (41_frame_decoder.md R136). -/
def closingAck (s : State) : Byte := if s.frameCalc = s.frameRecv then s.params.ackPass else s.params.ackFail

/-- The acknowledgment bytes of an operation: one if it closes a frame and acknowledgment is enabled. -/
def acksOf (i : Instr) (s : State) : List Byte :=
  if closesFrame i s && s.params.ackEnable then [closingAck (workOf i s)] else []

/-- The velocities of an operation: the new one at an effective tick (43_ramp.md R194). -/
def velsOf (i : Instr) (s : State) : List Velocity :=
  if i == .tick && s.tmrRun then [(workOf i s).rgCurrent] else []

theorem closingAck_congr {s u : State} (hp : u.params = s.params) (hb : u.fdBuf = s.fdBuf) :
    closingAck u = closingAck s := by
  have hcalc : u.frameCalc = s.frameCalc := by rw [State.frameCalc, State.frameCalc, hp, hb]
  have hrecv : u.frameRecv = s.frameRecv := by rw [State.frameRecv, State.frameRecv, hb]
  rw [closingAck, closingAck, hcalc, hrecv, hp]

/-- The close step emits the acknowledgment of its checksums, and it keeps the buffer they are computed from. -/
theorem closeFrame_outputs (s : State) :
    s.closeFrame.outputs = s.outputs ++ ackEvents s.params (closingAck s.closeFrame) := by
  have hack : closingAck s.closeFrame = if s.frameCalc = s.frameRecv then s.params.ackPass else s.params.ackFail := by
    rcases closeFrame_cases s with ⟨-, -, h⟩ | ⟨-, -, h⟩ | ⟨-, h⟩ <;> rw [h] <;> exact closingAck_congr rfl rfl
  rw [hack]
  rcases closeFrame_cases s with ⟨hc, -, h⟩ | ⟨hc, -, h⟩ | ⟨hc, h⟩
  · rw [h, if_pos hc]
  · rw [h, if_pos hc]
  · rw [h, if_neg hc]

theorem receive_outputs (s : State) (b : Byte) :
    (s.receive b).outputs = s.outputs ++ (acksOf (.rxByte b) s).map .ack := by
  rcases receive_cases s b with ⟨hst, -, h⟩ | ⟨hst, -, h⟩ | ⟨hst, hlt, h⟩ | ⟨hst, h7, h⟩
  · simp [h, acksOf, closesFrame, hst]
  · simp [h, acksOf, closesFrame, hst]
  · have hne : s.fdCount ≠ 7#3 := by bv_omega
    simp [h, acksOf, closesFrame, hne]
  · have hclose : closesFrame (.rxByte b) s = true := by simp [closesFrame, blockOf, hst, h7]
    rw [acksOf, hclose, workOf, h, closeFrame_outputs, ackEvents]
    cases hen : s.params.ackEnable <;> simp

theorem setTargetVelocity_outputs (s : State) (t : Velocity) :
    ∃ timer : List OutEvent, (∀ e ∈ timer, isTimerEvent e = true) ∧
      (s.setTargetVelocity t).outputs = s.outputs ++ timer := by
  rcases setTargetVelocity_cases s t with ⟨-, h⟩ | ⟨-, h⟩ | ⟨-, h⟩ <;> rw [h] <;> exact ⟨_, by simp [isTimerEvent], rfl⟩

theorem advance_outputs (s : State) :
    ∃ timer : List OutEvent, (∀ e ∈ timer, isTimerEvent e = true) ∧
      s.advance.outputs = s.outputs ++ timer ++ [.vel s.advance.rgCurrent] := by
  rcases advance_cases s with ⟨-, h⟩ | ⟨-, h⟩
  · exact ⟨[.timerStop], by simp [isTimerEvent], by simp [h]⟩
  · exact ⟨[], by simp, by simp [h]⟩

/-- The work of the operation emits the timer events `timer`, then its acknowledgment bytes and its velocities. -/
structure WorkEmits (i : Instr) (s : State) (timer : List OutEvent) : Prop where
  onlyTimer : ∀ e ∈ timer, isTimerEvent e = true
  outputs : (workOf i s).outputs = s.outputs ++ timer ++ (acksOf i s).map .ack ++ (velsOf i s).map .vel

theorem workEmits_nil {i : Instr} {s : State} (hwork : (workOf i s).outputs = s.outputs) (hacks : acksOf i s = [])
    (hvels : velsOf i s = []) : WorkEmits i s [] :=
  ⟨by simp, by simp [hwork, hacks, hvels]⟩

theorem exists_workEmits (i : Instr) (s : State) : ∃ timer, WorkEmits i s timer := by
  cases i with
  | rxByte b => exact ⟨[], by simp, by simp [workOf, receive_outputs, velsOf]⟩
  | rgSett t =>
    have hacks : acksOf (.rgSett t) s = [] := rfl
    cases hcfg : s.rgConfigured with
    | true =>
      obtain ⟨timer, htimer, h⟩ := setTargetVelocity_outputs s t
      exact ⟨timer, htimer, by simp [workOf, hcfg, h, hacks, velsOf]⟩
    | false => exact ⟨[], workEmits_nil (by simp [workOf, hcfg]) hacks rfl⟩
  | tick =>
    have hacks : acksOf .tick s = [] := rfl
    cases hrun : s.tmrRun with
    | true =>
      obtain ⟨timer, htimer, h⟩ := advance_outputs s
      exact ⟨timer, htimer, by simp [workOf, hrun, h, hacks, velsOf]⟩
    | false => exact ⟨[], workEmits_nil (by simp [workOf, hrun]) hacks (by simp [velsOf, hrun])⟩
  | stPop | rgCfg => exact ⟨[], workEmits_nil (by simp only [workOf]; split <;> rfl) rfl rfl⟩
  | crcInit | crcByte | crcRead | stLen | stOvf | rgCur | rgTgt => exact ⟨[], workEmits_nil rfl rfl rfl⟩

/-- Everything an operation emits, in order: timer events, the acknowledgment of a close, the velocity of an effective
tick, and its response. -/
theorem exec_outputs {i : Instr} {s t : State} (h : exec i s = .next t) :
    ∃ (timer : List OutEvent) (st : Status) (d : BitVec 64), (∀ e ∈ timer, isTimerEvent e = true) ∧
      t.outputs = s.outputs ++ (timer ++ (acksOf i s).map .ack ++ (velsOf i s).map .vel ++ [.response i.port st d]) := by
  obtain ⟨st, d, rfl⟩ := eq_respond_of_exec h
  obtain ⟨timer, htimer, hout⟩ := exists_workEmits i s
  exact ⟨timer, st, d, htimer, by simp [hout]⟩

end Sys2Proof.Laws
end

section
/-!
PROOFS. The frame decoder: RX.BYTE in its four cases (41_frame_decoder.md R130). The eighth byte closes the frame over the
buffer that holds it; `crc_acc` is not involved, since an update of it commutes with everything the decoder does.
-/

namespace Sys2Proof.Laws

open Sys2Proof.Machine

/-! ## The four cases -/

theorem exec_rxByte (b : Byte) (s : State) :
    exec (.rxByte b) s = .next ((s.receive b).emit (.response .rx .ok 0#64)) := rfl

theorem receive_of_start {s : State} {b : Byte} (hst : s.fdState = .idle) (hb : b = s.params.startByte) :
    s.receive b = { s with fdState := .inFrame, fdCount := 0#3 } := by
  simp [State.receive, hst, hb, State.setDecoder]

theorem receive_of_garbage {s : State} {b : Byte} (hst : s.fdState = .idle) (hb : b ≠ s.params.startByte) :
    s.receive b = s := by
  simp [State.receive, hst, hb]

theorem receive_of_payload {s : State} {b : Byte} (hst : s.fdState = .inFrame) (hlt : s.fdCount < 7#3) :
    s.receive b = { s with fdBuf := s.fdBuf.write s.fdCount b, fdCount := s.fdCount + 1#3 } := by
  simp [State.receive, hst, hlt, State.setDecoder, State.memWrite]

theorem receive_of_eighth {s : State} {b : Byte} (hst : s.fdState = .inFrame) (h7 : s.fdCount = 7#3) :
    s.receive b = { s with fdBuf := s.fdBuf.write 7#3 b }.closeFrame := by
  simp [State.receive, hst, h7, State.memWrite]

theorem closeFrame_fdBuf (s : State) : s.closeFrame.fdBuf = s.fdBuf := by
  rcases closeFrame_cases s with ⟨-, -, h⟩ | ⟨-, -, h⟩ | ⟨-, h⟩ <;> rw [h]

theorem closeFrame_params (s : State) : s.closeFrame.params = s.params := by
  rcases closeFrame_cases s with ⟨-, -, h⟩ | ⟨-, -, h⟩ | ⟨-, h⟩ <;> rw [h]

/-- In an open frame every byte is stored, the eighth included (41_frame_decoder.md R132). -/
theorem receive_fdBuf_of_inFrame {s : State} (b : Byte) (hst : s.fdState = .inFrame) :
    (s.receive b).fdBuf = s.fdBuf.write s.fdCount b := by
  rcases receive_cases s b with ⟨hidle, -⟩ | ⟨hidle, -⟩ | ⟨-, -, h⟩ | ⟨-, h7, h⟩
  · cases hst.symm.trans hidle
  · cases hst.symm.trans hidle
  · rw [h]
  · rw [h, closeFrame_fdBuf, h7]

/-! ## The numbers of the close -/

theorem bytes_data (m : Memory) : m.bytes 0 6 = [m.read 0, m.read 1, m.read 2, m.read 3, m.read 4, m.read 5] := rfl

/-- The Command of the buffer is the little-endian number of its eight bytes (30_encoding.md R82). -/
theorem toNat_frameCommand (s : State) :
    s.frameCommand.toNat = (s.fdBuf.read 0).toNat + 256 * (s.fdBuf.read 1).toNat + 256 ^ 2 * (s.fdBuf.read 2).toNat
      + 256 ^ 3 * (s.fdBuf.read 3).toNat + 256 ^ 4 * (s.fdBuf.read 4).toNat + 256 ^ 5 * (s.fdBuf.read 5).toNat
      + 256 ^ 6 * (s.fdBuf.read 6).toNat + 256 ^ 7 * (s.fdBuf.read 7).toNat := by
  have hfits : s.fdBuf.readLE 0 Config.payloadLen < 2 ^ 64 := by
    have hlt := littleEndian_lt (s.fdBuf.bytes 0 Config.payloadLen)
    rwa [Memory.bytes_length] at hlt
  have hbytes : s.fdBuf.bytes 0 Config.payloadLen = [s.fdBuf.read 0, s.fdBuf.read 1, s.fdBuf.read 2, s.fdBuf.read 3,
      s.fdBuf.read 4, s.fdBuf.read 5, s.fdBuf.read 6, s.fdBuf.read 7] := rfl
  rw [State.frameCommand, BitVec.toNat_ofNat, Nat.mod_eq_of_lt hfits, Memory.readLE, hbytes]
  simp only [littleEndian]
  ring

/-- The saturating increment as a number (42_command_store.md R161). -/
theorem toNat_saturatingIncr (n : Half) : (saturatingIncr n).toNat = min (n.toNat + 1) 0xFFFF := by
  unfold saturatingIncr
  split
  · next h => rw [h]; rfl
  · next h => bv_omega

/-! ## The decoder and `crc_acc` commute (41_frame_decoder.md R135) -/

theorem stPush_setCrcAcc (s : State) (cmd : Command) (c : Half) :
    (s.setCrcAcc c).stPush cmd = (s.stPush cmd).setCrcAcc c := by
  have hfull : (s.setCrcAcc c).stFull = s.stFull := rfl
  rw [State.stPush, State.stPush, hfull]
  split
  · rfl
  · rfl

theorem acknowledge_setCrcAcc (s : State) (b : Byte) (c : Half) :
    (s.setCrcAcc c).acknowledge b = (s.acknowledge b).setCrcAcc c := by
  rw [acknowledge_eq, acknowledge_eq]
  rfl

theorem closeFrame_setCrcAcc (s : State) (c : Half) : (s.setCrcAcc c).closeFrame = s.closeFrame.setCrcAcc c := by
  have hcalc : (s.setCrcAcc c).frameCalc = s.frameCalc := rfl
  have hrecv : (s.setCrcAcc c).frameRecv = s.frameRecv := rfl
  have hcmd : (s.setCrcAcc c).frameCommand = s.frameCommand := rfl
  rw [State.closeFrame, State.closeFrame, hcalc, hrecv, hcmd, stPush_setCrcAcc, acknowledge_setCrcAcc,
    acknowledge_setCrcAcc]
  split
  · rfl
  · rfl

/-- Receiving a byte neither reads nor writes the accumulator. -/
theorem receive_setCrcAcc (s : State) (b : Byte) (c : Half) :
    (s.setCrcAcc c).receive b = (s.receive b).setCrcAcc c := by
  rcases receive_cases s b with ⟨hst, hb, -⟩ | ⟨hst, hb, -⟩ | ⟨hst, hlt, -⟩ | ⟨hst, h7, -⟩
  · rw [receive_of_start (s := s) hst hb]
    exact receive_of_start (s := s.setCrcAcc c) hst hb
  · rw [receive_of_garbage (s := s) hst hb]
    exact receive_of_garbage (s := s.setCrcAcc c) hst hb
  · rw [receive_of_payload (s := s) hst hlt]
    exact receive_of_payload (s := s.setCrcAcc c) hst hlt
  · rw [receive_of_eighth (s := s) hst h7, ← closeFrame_setCrcAcc]
    exact receive_of_eighth (s := s.setCrcAcc c) hst h7

/-- The accumulator is kept: setting it to the value it has changes nothing before the byte, hence nothing after it. -/
theorem receive_crcAcc (s : State) (b : Byte) : (s.receive b).crcAcc = s.crcAcc :=
  calc (s.receive b).crcAcc = ((s.setCrcAcc s.crcAcc).receive b).crcAcc := rfl
    _ = s.crcAcc := by rw [receive_setCrcAcc, State.setCrcAcc_crcAcc]

/-! ## The statements -/

/-- Settles O33. -/
theorem rxByteWhileIdle : Obligations.RxByteWhileIdle := by
  intro b s hst
  refine ⟨fun hb => ?sentinel, fun hb => ?garbage⟩
  case sentinel => rw [exec_rxByte, receive_of_start hst hb]; rfl
  case garbage => rw [exec_rxByte, receive_of_garbage hst hb]; rfl

/-- Settles O34: the byte is written at the counter, and a byte before the eighth does nothing else but count. -/
theorem rxByteStoresPayload : Obligations.RxByteStoresPayload := by
  intro b s hst
  refine ⟨⟨_, exec_rxByte b s, fun a => ?stored⟩, fun hlt => ⟨s.fdBuf.write s.fdCount b, s.fdCount + 1#3, ?counted, ?only⟩⟩
  case stored => rw [State.emit_fdBuf, receive_fdBuf_of_inFrame b hst, Memory.read_write]
  case counted => bv_omega
  case only =>
    rw [exec_rxByte, receive_of_payload hst (by bv_omega)]
    rfl

/-- Settles O35: the checksums are compared over the buffer that holds the eighth byte; on a match the Command is pushed,
which appends it or counts a drop. -/
theorem rxByteClosesTheFrame : Obligations.RxByteClosesTheFrame := by
  intro b s hst h7
  have hexec : exec (.rxByte b) s = .next ({ s with fdBuf := s.fdBuf.write 7#3 b }.closeFrame.emit (.response .rx .ok 0#64)) := by
    rw [exec_rxByte, receive_of_eighth hst h7]
  refine ⟨s.fdBuf.write 7#3 b, fun a => Memory.read_write _ _ _ _, ?_⟩
  rw [← bytes_data, hexec]
  have hmatch := State.frameCalc_eq_frameRecv { s with fdBuf := s.fdBuf.write 7#3 b }
  have hnumber := toNat_frameCommand { s with fdBuf := s.fdBuf.write 7#3 b }
  rcases closeFrame_cases { s with fdBuf := s.fdBuf.write 7#3 b } with ⟨hc, hroom, h⟩ | ⟨hc, hfull, h⟩ | ⟨hc, h⟩
  · refine ⟨fun _ => ⟨_, _, s.stOvf, hnumber, fun _ => ⟨rfl, rfl⟩, fun hfull => absurd hroom (by simpa using hfull), ?_⟩,
      fun hne => absurd (hmatch.mp hc) hne⟩
    rw [h]
    rfl
  · refine ⟨fun _ => ⟨_, s.stQ, _, hnumber, fun hroom => absurd hfull (by simpa using hroom),
      fun _ => ⟨rfl, toNat_saturatingIncr s.stOvf⟩, ?_⟩, fun hne => absurd (hmatch.mp hc) hne⟩
    rw [h]
    rfl
  · refine ⟨fun heq => absurd (hmatch.mpr heq) hc, fun _ => ?_⟩
    rw [h]
    rfl

/-- Settles O37. -/
theorem theDecoderNeverUsesTheAccumulator : Obligations.TheDecoderNeverUsesTheAccumulator := by
  intro b s t c h
  obtain rfl : (s.receive b).emit (.response .rx .ok 0#64) = t := Host.Outcome.next.inj h
  have hcommutes : ({ s with crcAcc := c } : State).receive b = (s.receive b).setCrcAcc c := receive_setCrcAcc s b c
  refine ⟨receive_crcAcc s b, ?_⟩
  rw [exec_rxByte, hcommutes]
  rfl

end Sys2Proof.Laws
end

section
/-!
PROOFS. Acknowledgments and output pins, read off what an operation emits. The acknowledgment bytes among its events are
those of its close. A pin is valid after a clock edge when one of the operations in it has driven the pin; none before the
received byte touches the decoder, so whether that byte closes a frame is told by the state before the edge.
-/

namespace Sys2Proof.Laws

open Sys2Proof.Machine

/-! ## What the pins read from the events -/

/-- The timer events are seen on no pin with a valid bit (10_state.md R45). -/
theorem timer_drives_no_pin {timer : List OutEvent} (h : ∀ e ∈ timer, isTimerEvent e = true) :
    timer.filterMap hostResponseOf = [] ∧ timer.filterMap velocityOf = [] ∧ timer.filterMap ackByteOf = [] := by
  have unseen : ∀ e, isTimerEvent e = true → hostResponseOf e = none ∧ velocityOf e = none ∧ ackByteOf e = none := by
    intro e he
    cases e with
    | setPeriod | timerStart | timerStop => exact ⟨rfl, rfl, rfl⟩
    | response | ack | vel => cases he
  simp only [List.filterMap_eq_nil_iff]
  refine ⟨fun e he => ?_, fun e he => ?_, fun e he => ?_⟩
  all_goals
    obtain ⟨hhost, hvel, hack⟩ := unseen e (h e he)
    assumption

/-- What an operation emits, as the three kinds of pins read it. -/
theorem exec_events {i : Instr} {s t : State} (h : exec i s = .next t) :
    ∃ evs r, t.outputs = s.outputs ++ evs ∧ evs.filterMap hostResponseOf = (if i.port = .host then [r] else []) ∧
      evs.filterMap velocityOf = velsOf i s ∧ evs.filterMap ackByteOf = acksOf i s := by
  obtain ⟨timer, st, d, htimer, hout⟩ := exec_outputs h
  obtain ⟨hhost, hvel, hack⟩ := timer_drives_no_pin htimer
  refine ⟨_, (st.code, d), hout, ?responses, ?velocities, ?acks⟩
  case responses => cases hport : i.port <;> simp [hhost, hostResponseOf, Function.comp_def]
  case velocities => simp [hvel, velocityOf, Function.comp_def]
  case acks => simp [hack, ackByteOf, Function.comp_def]

/-! ## Pins driven by one operation -/

/-- Between `s` and `t` a host response, a velocity, an acknowledgment was driven, as the flags say; a pin that was valid
stays so. -/
structure Drives (s t : State) (host vel ack : Bool) : Prop where
  hResponse : t.outPins.hResponse.isSome = (s.outPins.hResponse.isSome || host)
  vel : t.outPins.vel.isSome = (s.outPins.vel.isSome || vel)
  ack : t.outPins.ack.isSome = (s.outPins.ack.isSome || ack)

theorem Drives.refl (s : State) : Drives s s false false false :=
  ⟨(Bool.or_false _).symm, (Bool.or_false _).symm, (Bool.or_false _).symm⟩

theorem Drives.trans {s t u : State} {h v a h' v' a' : Bool} (st : Drives s t h v a) (tu : Drives t u h' v' a') :
    Drives s u (h || h') (v || v') (a || a') :=
  ⟨by rw [tu.hResponse, st.hResponse, Bool.or_assoc], by rw [tu.vel, st.vel, Bool.or_assoc],
    by rw [tu.ack, st.ack, Bool.or_assoc]⟩

/-- A selector finds something in a list of events when it does in a part. -/
theorem isSome_findSome?_append {α : Type} (f : OutEvent → Option α) (a b : List OutEvent) :
    ((a ++ b).findSome? f).isSome = ((a.findSome? f).isSome || !(b.filterMap f).isEmpty) := by
  rw [List.findSome?_append, Option.isSome_or, ← List.head?_filterMap (f := f) (l := b)]
  cases b.filterMap f <;> rfl

theorem drives_of_outputs {s t : State} {evs : List OutEvent} (h : t.outputs = s.outputs ++ evs) :
    Drives s t (!(evs.filterMap hostResponseOf).isEmpty) (!(evs.filterMap velocityOf).isEmpty)
      (!(evs.filterMap ackByteOf).isEmpty) := by
  refine ⟨?_, ?_, ?_⟩
  all_goals
    simp only [State.outPins, h]
    exact isSome_findSome?_append _ _ _

theorem exec_drives {i : Instr} {s t : State} (h : exec i s = .next t) :
    Drives s t (i.port == .host) (i == .tick && s.tmrRun) (closesFrame i s && s.params.ackEnable) := by
  obtain ⟨evs, r, hout, hhost, hvel, hack⟩ := exec_events h
  have hdrives := drives_of_outputs hout
  have hhost' : (!(if i.port = .host then [r] else []).isEmpty) = (i.port == .host) := by cases i.port <;> rfl
  have hvel' : (!(velsOf i s).isEmpty) = (i == .tick && s.tmrRun) := by rw [velsOf]; split <;> simp_all
  have hack' : (!(acksOf i s).isEmpty) = (closesFrame i s && s.params.ackEnable) := by rw [acksOf]; split <;> simp_all
  rwa [hhost, hvel, hack, hhost', hvel', hack'] at hdrives

/-! ## Pins driven by the groups of a clock edge -/

theorem port_of_decodeAt {p : Port} {w : EventWord} {i : Instr} (h : decodeAt p w = .operation i) : i.port = p := by
  by_contra hne
  rw [decode_eq_operation_iff.mp (decode_of_decodeAt h), decodeAt_encode_of_ne hne] at h
  cases h

/-- RX.BYTE is the one operation of the rx port. -/
theorem blockOf_ne_decoder_of_host {i : Instr} (h : i.port = .host) : blockOf i ≠ .decoder := by
  cases i with
  | rxByte b => cases h
  | tick => cases h
  | crcInit | crcByte | crcRead | stPop | stLen | stOvf | rgCfg | rgSett | rgCur | rgTgt => nofun

theorem performTickPin_drives {pins : InPins} {s t : State} (h : performTickPin pins s = .next t) :
    Drives s t false (pins.tick && s.tmrRun) false ∧ DecoderKept s t := by
  unfold performTickPin at h
  split at h
  · next htick =>
    rw [htick]
    exact ⟨exec_drives h, exec_keeps_decoder (by decide) h⟩
  · next htick =>
    obtain rfl := Host.Outcome.next.inj h
    rw [Bool.eq_false_iff.mpr htick]
    exact ⟨.refl s, .refl s⟩

/-- Every word offered at the host is answered there, and none reaches the decoder (60_exceptions.md R229). -/
theorem performOp_host_drives {w : EventWord} {s t : State} (h : performOp .host w s = .next t) :
    Drives s t true false false ∧ DecoderKept s t := by
  rcases performOp_cases .host w s with ⟨i, hdec, hperf⟩ | ⟨why, -, hperf⟩
  · have hexec : exec i s = .next t := hperf.symm.trans h
    have hport : i.port = .host := port_of_decodeAt hdec
    have hblock : blockOf i ≠ .decoder := blockOf_ne_decoder_of_host hport
    have htick : i ≠ .tick := by rintro rfl; cases hport
    have hdrives := exec_drives hexec
    simp only [closesFrame, hport, beq_eq_false_iff_ne.mpr hblock, beq_eq_false_iff_ne.mpr htick, Bool.false_and] at hdrives
    exact ⟨hdrives, exec_keeps_decoder hblock hexec⟩
  · obtain rfl := Host.Outcome.next.inj (hperf.symm.trans h)
    exact ⟨drives_of_outputs (s.emit_outputs _), ⟨rfl, rfl, rfl, rfl⟩⟩

theorem performHostPins_drives {pins : InPins} {s t : State} (h : performHostPins pins s = .next t) :
    Drives s t pins.hValid false false ∧ DecoderKept s t := by
  unfold performHostPins at h
  split at h
  · next hvalid =>
    rw [hvalid]
    exact performOp_host_drives h
  · next hvalid =>
    obtain rfl := Host.Outcome.next.inj h
    rw [Bool.eq_false_iff.mpr hvalid]
    exact ⟨.refl s, .refl s⟩

theorem performRxPins_drives {pins : InPins} {s t : State} (h : performRxPins pins s = .next t) :
    Drives s t false false (pins.rxValid && s.fdState == .inFrame && s.fdCount == 7#3 && s.params.ackEnable) := by
  unfold performRxPins at h
  split at h
  · next hvalid =>
    rw [hvalid]
    exact exec_drives h
  · next hvalid =>
    obtain rfl := Host.Outcome.next.inj h
    rw [Bool.eq_false_iff.mpr hvalid]
    exact .refl s

/-- The whole edge: three groups one after another, the decoder as it was when the rx group comes. -/
theorem performEdge_drives {pins : InPins} {s t : State} (hrst : pins.rst = false) (h : performEdge pins s = .next t) :
    Drives s t pins.hValid (pins.tick && s.tmrRun)
      (pins.rxValid && s.fdState == .inFrame && s.fdCount == 7#3 && s.params.ackEnable) := by
  rw [performEdge_of_not_rst hrst] at h
  obtain ⟨b, hb, hrx⟩ := andThen_eq_next h
  obtain ⟨a, htick, hhost⟩ := andThen_eq_next hb
  obtain ⟨dtick, ktick⟩ := performTickPin_drives htick
  obtain ⟨dhost, khost⟩ := performHostPins_drives hhost
  have kept := ktick.trans khost
  have dedge := (dtick.trans dhost).trans (performRxPins_drives hrx)
  rwa [kept.fdState, kept.fdCount, kept.params, Bool.false_or, Bool.or_false, Bool.or_false, Bool.or_false,
    Bool.false_or, Bool.false_or] at dedge

/-! ## The byte of a close -/

theorem receive_params (s : State) (b : Byte) : (s.receive b).params = s.params := by
  rcases receive_cases s b with ⟨-, -, h⟩ | ⟨-, -, h⟩ | ⟨-, -, h⟩ | ⟨-, -, h⟩
  · rw [h]
  · rw [h]
  · rw [h]
  · rw [h, closeFrame_params]

theorem workOf_params (i : Instr) (s : State) : (workOf i s).params = s.params := by
  by_cases hi : blockOf i = .decoder
  · cases i with
    | rxByte b => exact receive_params s b
    | crcInit | crcByte | crcRead | stPop | stLen | stOvf | rgCfg | rgSett | rgCur | rgTgt | tick => cases hi
  · exact (workOf_keeps_decoder hi s).params

/-- The checksums of a buffer compared as numbers, byte 6 the low one (41_frame_decoder.md R133). -/
theorem closingAck_eq (s : State) : closingAck s =
    if (crc16 s.params.crc (s.fdBuf.bytes 0 6)).toNat = (s.fdBuf.read 6).toNat + 256 * (s.fdBuf.read 7).toNat
    then s.params.ackPass else s.params.ackFail :=
  if_congr s.frameCalc_eq_frameRecv rfl rfl

/-! ## The statements -/

/-- Settles O36: the acknowledgment bytes of an operation are those of its close, and the two checksums are compared as
numbers. -/
theorem acknowledgmentsExactlyAtTheClose : Obligations.AcknowledgmentsExactlyAtTheClose := by
  intro i s t evs h hevs
  have hacks : evs.filterMap ackByteOf = acksOf i s := by
    obtain ⟨evs', r, hevs', -, -, hack⟩ := exec_events h
    obtain rfl : evs = evs' := List.append_cancel_left (hevs.symm.trans hevs')
    exact hack
  have hcond : (closesFrame i s && s.params.ackEnable) = true ↔
      blockOf i = .decoder ∧ s.fdState = .inFrame ∧ s.fdCount = 7#3 ∧ s.params.ackEnable = true := by
    simp [closesFrame, and_assoc]
  rw [hacks, acksOf, ← hcond]
  refine ⟨fun hclose => ?closed, fun hopen => if_neg hopen⟩
  case closed =>
    rw [if_pos hclose, closingAck_eq, workOf_params]
    obtain ⟨st, d, rfl⟩ := eq_respond_of_exec h
    rfl

/-- Settles O12. -/
theorem outputPinsAfterAClockEdge : Obligations.OutputPinsAfterAClockEdge := by
  intro s t pins rest hin hrst h
  rw [step_of_inputs_cons hin] at h
  obtain ⟨hhost, hvel, hack⟩ := performEdge_drives hrst h
  exact ⟨hhost, hvel, hack, rfl, rfl⟩

end Sys2Proof.Laws
end

section
/-!
PROOFS. The Command Store. A push appends at the tail or counts a drop, a pop removes the head and answers it, and nothing
else but RX.BYTE writes the store. Hence, with nothing dropped, what has been answered followed by what is held is what was
held followed by what was pushed; and a pop ahead of a closing frame in one clock edge leaves room for the new Command.
-/

namespace Sys2Proof.Laws

open Sys2Proof.Machine

/-! ## What the operations of the store do -/

theorem stPush_of_room {s : State} (cmd : Command) (hroom : s.stQ.length < s.params.storeDepth) :
    s.stPush cmd = { s with stQ := s.stQ ++ [cmd] } := by
  rcases stPush_cases s cmd with ⟨-, h⟩ | ⟨hfull, -⟩
  · exact h
  · exact absurd hroom (Nat.not_lt.mpr hfull)

theorem stPush_of_full {s : State} (cmd : Command) (hfull : s.params.storeDepth ≤ s.stQ.length) :
    s.stPush cmd = { s with stOvf := saturatingIncr s.stOvf } := by
  rcases stPush_cases s cmd with ⟨hroom, -⟩ | ⟨-, h⟩
  · exact absurd hroom (Nat.not_lt.mpr hfull)
  · exact h

theorem exec_stPop_of_empty {s : State} (h : s.stQ = []) :
    exec .stPop s = .next (s.emit (.response .host .empty 0#64)) := by
  simp only [exec, execStPop, h, State.respond_eq_emit]

theorem exec_stPop_of_cons {s : State} {head : Command} {rest : List Command} (h : s.stQ = head :: rest) :
    exec .stPop s = .next ((s.setStQ rest).emit (.response .host .ok head)) := by
  simp only [exec, execStPop, h, State.respond_eq_emit]

theorem exec_stLen (s : State) : exec .stLen s =
    .next { s with outputs := s.outputs ++ [.response .host .ok (s.stLen.setWidth 64)] } := rfl

theorem exec_stOvf (s : State) : exec .stOvf s =
    .next { s with outputs := s.outputs ++ [.response .host .ok (s.stOvf.setWidth 64)] } := rfl

/-- The four bits of `st_len` hold every length that is legal (00_scope.md R8; 10_state.md R29). -/
theorem toNat_stLen {s : State} (h : s.stQ.length ≤ 15) : s.stLen.toNat = s.stQ.length := by
  rw [State.stLen, BitVec.toNat_ofNat, Nat.mod_eq_of_lt (by omega)]

/-- Settles O43. -/
theorem pushAppendsOrCounts : Obligations.PushAppendsOrCounts :=
  fun s cmd => ⟨stPush_of_room cmd, fun hfull => ⟨_, stPush_of_full cmd hfull, toNat_saturatingIncr s.stOvf⟩⟩

/-- Settles O44. -/
theorem popAnswersTheOldestEntry : Obligations.PopAnswersTheOldestEntry :=
  ⟨isWordOf_encode .stPop, fun _ => ⟨exec_stPop_of_empty, fun _ _ => exec_stPop_of_cons⟩⟩

/-- Settles O45: both answers are registers widened with zeros, so they are the registers' numbers. -/
theorem lenAndOvfAnswerTheCounts : Obligations.LenAndOvfAnswerTheCounts := by
  refine ⟨isWordOf_encode .stLen, isWordOf_encode .stOvf, fun s => ⟨_, _, exec_stLen s, exec_stOvf s, fun hlen => ?_, ?_⟩⟩
  · rw [BitVec.toNat_setWidth_of_le (by decide), toNat_stLen hlen]
  · exact BitVec.toNat_setWidth_of_le (by decide)

/-! ## First in, first out (42_command_store.md R165) -/

/-- Commands that fit are appended in the order they are pushed. -/
theorem foldl_stPush_of_room {s : State} {cmds : List Command} (hroom : s.stQ.length + cmds.length ≤ s.params.storeDepth) :
    cmds.foldl State.stPush s = { s with stQ := s.stQ ++ cmds } := by
  induction cmds generalizing s with
  | nil => simp
  | cons cmd rest ih =>
    rw [List.length_cons] at hroom
    rw [List.foldl_cons, stPush_of_room cmd (by omega), ih]
    · simp
    · simp only [List.length_append, List.length_singleton]
      omega

/-- One pop more than there are entries: every entry is answered, the oldest first, and then EMPTY. -/
theorem execAll_stPop_drains (s : State) (q : List Command) :
    execAll (List.replicate (q.length + 1) .stPop) (s.setStQ q) =
      .next { s with
        stQ := [], outputs := s.outputs ++ q.map (.response .host .ok) ++ [.response .host .empty 0#64] } := by
  induction q generalizing s with
  | nil =>
    have hpop := exec_stPop_of_empty (s.setStQ_stQ [])
    rw [List.length_nil, List.replicate_one, execAll_cons, hpop, List.map_nil, List.append_nil]
    rfl
  | cons head rest ih =>
    have hpop := exec_stPop_of_cons (s.setStQ_stQ (head :: rest))
    have hrest := ih (s.emit (.response .host .ok head))
    rw [State.emit_outputs, List.append_assoc s.outputs] at hrest
    rw [List.length_cons, List.replicate_succ, execAll_cons, hpop, List.map_cons]
    exact hrest

/-- A pop conserves what it finds: the Command it answers, if any, followed by what it leaves. -/
theorem exec_stPop_conserves {s t : State} (h : exec .stPop s = .next t) :
    ∃ e, t.outputs = s.outputs ++ [e] ∧ [e].filterMap okDataOf ++ t.stQ = s.stQ ∧ t.stOvf = s.stOvf := by
  cases hq : s.stQ with
  | nil =>
    obtain rfl := Host.Outcome.next.inj ((exec_stPop_of_empty hq).symm.trans h)
    exact ⟨_, rfl, hq, rfl⟩
  | cons head rest =>
    obtain rfl := Host.Outcome.next.inj ((exec_stPop_of_cons hq).symm.trans h)
    exact ⟨_, rfl, rfl, rfl⟩

/-- The overflow counter never goes down, whatever is pushed and popped. -/
theorem stOvf_le_of_storeRun {acts : List StoreAct} {s t : State} (h : storeRun acts s = .next t) :
    s.stOvf.toNat ≤ t.stOvf.toNat := by
  induction acts generalizing s with
  | nil =>
    obtain rfl := Host.Outcome.next.inj h
    exact le_rfl
  | cons act rest ih =>
    cases act with
    | push cmd =>
      refine le_trans ?_ (ih h)
      rcases stPush_cases s cmd with ⟨-, hpush⟩ | ⟨-, hpush⟩
      · rw [hpush]
      · have hlt := s.stOvf.isLt
        rw [hpush, toNat_saturatingIncr]
        omega
    | pop =>
      obtain ⟨u, hpop, hrest⟩ := andThen_eq_next h
      obtain ⟨-, -, -, hovf⟩ := exec_stPop_conserves hpop
      exact hovf ▸ ih hrest

/-- In a run that leaves a counter below saturation as it was, the first push was not dropped: a drop raises the counter,
and nothing after it lowers it again. -/
theorem stPush_of_stOvf_kept {cmd : Command} {rest : List StoreAct} {s t : State}
    (h : storeRun rest (s.stPush cmd) = .next t) (hsat : s.stOvf ≠ 0xFFFF#16) (hkept : t.stOvf = s.stOvf) :
    s.stPush cmd = { s with stQ := s.stQ ++ [cmd] } := by
  rcases stPush_cases s cmd with ⟨-, hpush⟩ | ⟨-, hpush⟩
  · exact hpush
  · have hle := stOvf_le_of_storeRun h
    rw [hpush, toNat_saturatingIncr, hkept] at hle
    bv_omega

/-- With none dropped, the Commands popped and those still held are those held before and those pushed, in order. -/
theorem storeRun_conserves {acts : List StoreAct} {s t : State} (h : storeRun acts s = .next t)
    (hsat : s.stOvf ≠ 0xFFFF#16) (hkept : t.stOvf = s.stOvf) :
    ∃ evs, t.outputs = s.outputs ++ evs ∧ evs.filterMap okDataOf ++ t.stQ = s.stQ ++ acts.filterMap pushedOf := by
  induction acts generalizing s with
  | nil =>
    obtain rfl := Host.Outcome.next.inj h
    exact ⟨[], by simp, by simp⟩
  | cons act rest ih =>
    cases act with
    | push cmd =>
      have hrest : storeRun rest (s.stPush cmd) = .next t := h
      rw [stPush_of_stOvf_kept hrest hsat hkept] at hrest
      obtain ⟨evs, hout, hcmds⟩ := ih hrest hsat hkept
      exact ⟨evs, hout, by simp [hcmds, pushedOf]⟩
    | pop =>
      obtain ⟨u, hpop, hrest⟩ := andThen_eq_next h
      obtain ⟨e, hpopOut, hpopCmds, hovf⟩ := exec_stPop_conserves hpop
      obtain ⟨evs, hout, hcmds⟩ := ih hrest (hovf ▸ hsat) (hkept.trans hovf.symm)
      refine ⟨e :: evs, by simp [hout, hpopOut], ?_⟩
      calc (e :: evs).filterMap okDataOf ++ t.stQ
          = [e].filterMap okDataOf ++ (evs.filterMap okDataOf ++ t.stQ) := by
            rw [← List.append_assoc, ← List.filterMap_append, List.singleton_append]
        _ = s.stQ ++ (StoreAct.pop :: rest).filterMap pushedOf := by
            rw [hcmds, ← List.append_assoc, hpopCmds, List.filterMap_cons_none rfl]

/-- Settles O46. -/
theorem theStoreIsFirstInFirstOut : Obligations.TheStoreIsFirstInFirstOut := by
  refine ⟨fun s cmds hempty hfits => ?drained, fun s t acts => storeRun_conserves⟩
  case drained =>
    have hpushed : cmds.foldl State.stPush s = s.setStQ cmds := by
      rw [foldl_stPush_of_room (by simpa [hempty] using hfits), hempty]
      rfl
    rw [hpushed, execAll_stPop_drains, ← hempty]

/-! ## What keeps the store (10_state.md R28, R30) -/

/-- The store and its overflow counter are the same. -/
structure StoreKept (s t : State) : Prop where
  stQ : t.stQ = s.stQ
  stOvf : t.stOvf = s.stOvf

theorem setTargetVelocity_keeps_store (s : State) (t : Velocity) : StoreKept s (s.setTargetVelocity t) := by
  rcases setTargetVelocity_cases s t with ⟨-, h⟩ | ⟨-, h⟩ | ⟨-, h⟩ <;> rw [h] <;> exact ⟨rfl, rfl⟩

theorem advance_keeps_store (s : State) : StoreKept s s.advance := by
  rcases advance_cases s with ⟨-, h⟩ | ⟨-, h⟩ <;> rw [h] <;> exact ⟨rfl, rfl⟩

theorem workOf_keeps_store {i : Instr} (hrx : blockOf i ≠ .decoder) (hpop : i ≠ .stPop) (s : State) :
    StoreKept s (workOf i s) := by
  cases i with
  | rxByte b => exact absurd rfl hrx
  | stPop => exact absurd rfl hpop
  | rgCfg => simp only [workOf]; split <;> exact ⟨rfl, rfl⟩
  | rgSett t =>
    simp only [workOf]
    split
    · exact setTargetVelocity_keeps_store s t
    · exact ⟨rfl, rfl⟩
  | tick =>
    simp only [workOf]
    split
    · exact advance_keeps_store s
    · exact ⟨rfl, rfl⟩
  | crcInit | crcByte | crcRead | stLen | stOvf | rgCur | rgTgt => exact ⟨rfl, rfl⟩

/-- No operation but RX.BYTE and ST.POP writes the store or its counter. -/
theorem exec_keeps_store {i : Instr} {s t : State} (hrx : blockOf i ≠ .decoder) (hpop : i ≠ .stPop)
    (h : exec i s = .next t) : StoreKept s t := by
  obtain ⟨st, d, rfl⟩ := eq_respond_of_exec h
  obtain ⟨hq, hovf⟩ := workOf_keeps_store hrx hpop s
  exact ⟨hq, hovf⟩

theorem performTickPin_keeps_store {pins : InPins} {s t : State} (h : performTickPin pins s = .next t) :
    StoreKept s t := by
  unfold performTickPin at h
  split at h
  · exact exec_keeps_store (by decide) (by decide) h
  · obtain rfl := Host.Outcome.next.inj h
    exact ⟨rfl, rfl⟩

/-! ## A pop and a closing frame in one clock edge (42_command_store.md R166) -/

/-- An edge that offers an ST.POP and a byte: the tick, if any, leaves the decoder and the store alone, so the pop finds the
store, and the byte the decoder, as before the edge. -/
theorem performEdge_pop_then_byte {pins : InPins} {s t : State} {head : Command} {q : List Command}
    (hrst : pins.rst = false) (hhost : pins.hValid = true) (hword : pins.hWord = encode .stPop)
    (hrx : pins.rxValid = true) (hq : s.stQ = head :: q) (h : performEdge pins s = .next t) :
    ∃ b : State, DecoderKept s b ∧ b.stQ = q ∧ b.stOvf = s.stOvf ∧ OutEvent.response .host .ok head ∈ b.outputs ∧
      exec (.rxByte pins.rxData) b = .next t := by
  rw [performEdge_of_not_rst hrst] at h
  obtain ⟨b, hb, hbyte⟩ := andThen_eq_next h
  obtain ⟨a, htick, hpop⟩ := andThen_eq_next hb
  rw [performRxPins, if_pos hrx] at hbyte
  rw [performHostPins, if_pos hhost, hword] at hpop
  replace hpop : exec .stPop a = .next b := (perform_op_encode .stPop a).symm.trans hpop
  obtain ⟨-, dtick⟩ := performTickPin_drives htick
  obtain ⟨hstQ, hstOvf⟩ := performTickPin_keeps_store htick
  have dpop : DecoderKept a b := exec_keeps_decoder (by decide) hpop
  refine ⟨b, dtick.trans dpop, ?_⟩
  obtain rfl := Host.Outcome.next.inj ((exec_stPop_of_cons (hstQ.trans hq)).symm.trans hpop)
  exact ⟨rfl, hstOvf, by simp, hbyte⟩

/-- The eighth byte of a frame whose checksums agree, with room in the store: the Command of the full buffer is appended. -/
theorem exec_rxByte_accepts {s t : State} {byte : Byte} (hst : s.fdState = .inFrame) (h7 : s.fdCount = 7#3)
    (hroom : s.stQ.length < s.params.storeDepth) (h : exec (.rxByte byte) s = .next t)
    (hmatch : t.frameCalc = t.frameRecv) :
    t.fdBuf = s.fdBuf.write 7#3 byte ∧ t.stQ = s.stQ ++ [t.frameCommand] ∧ t.stOvf = s.stOvf := by
  have hexec := exec_rxByte byte s
  rw [receive_of_eighth hst h7] at hexec
  rcases closeFrame_cases { s with fdBuf := s.fdBuf.write 7#3 byte } with ⟨-, -, hclose⟩ | ⟨-, hfull, -⟩ | ⟨hne, hclose⟩
  · rw [hclose] at hexec
    obtain rfl := Host.Outcome.next.inj (hexec.symm.trans h)
    exact ⟨rfl, rfl, rfl⟩
  · exact absurd hroom (Nat.not_lt.mpr hfull)
  · rw [hclose] at hexec
    obtain rfl := Host.Outcome.next.inj (hexec.symm.trans h)
    exact absurd hmatch hne

/-- Settles O13: the pop comes before the byte, so when the frame closes the store holds one entry less than its depth. -/
theorem aPopInTheSameCycleMakesRoom : Obligations.APopInTheSameCycleMakesRoom := by
  intro s t pins head q hrst hhost hword hrx hq hfull hst h7 h hsum
  obtain ⟨b, kept, hbq, hbovf, hanswer, hbyte⟩ := performEdge_pop_then_byte hrst hhost hword hrx hq h
  have hroom : b.stQ.length < b.params.storeDepth := by
    rw [hbq, kept.params, ← hfull, hq]
    exact Nat.lt_succ_self q.length
  have hparams : t.params = s.params := by
    obtain rfl := Host.Outcome.next.inj hbyte
    exact (receive_params b pins.rxData).trans kept.params
  have hmatch : t.frameCalc = t.frameRecv := t.frameCalc_eq_frameRecv.mpr (hparams ▸ hsum)
  obtain ⟨hbuf, hstQ, hstOvf⟩ :=
    exec_rxByte_accepts (kept.fdState.trans hst) (kept.fdCount.trans h7) hroom hbyte hmatch
  refine ⟨t.frameCommand, toNat_frameCommand t, fun a => ?buffer, by rw [hstQ, hbq], hstOvf.trans hbovf, ?answer⟩
  case buffer =>
    rw [hbuf, kept.fdBuf, Memory.read_write]
    rfl
  case answer =>
    obtain ⟨timer, st, d, -, hout⟩ := exec_outputs hbyte
    rw [hout]
    exact List.mem_append_left _ hanswer

end Sys2Proof.Laws
end

section
/-!
PROOFS. What the operations of the ramp do. The clamp and the rate conversion as numbers; RG.CFG, RG.SETT and TICK as record
updates; and from these, once each, what an accepted RG.SETT (`RampSet`) and an effective tick (`Advanced`) lead to.
-/

namespace Sys2Proof.Laws

open Sys2Proof.Machine

/-! ## The rate conversion (43_ramp.md R182) -/

theorem rateQuotient_le (m n : Nat) : 1000000 / m / n ≤ 1000000 :=
  (Nat.div_le_self _ n).trans (Nat.div_le_self _ m)

/-- The quotient fits the 20 bits of a period, so nothing is cut off. -/
theorem toNat_rateToCmp (g : Nat) (r : Half) : (rateToCmp g r).toNat = 1000000 / r.toNat / g := by
  rw [rateToCmp, microsPerSecond, BitVec.toNat_ofNat]
  exact Nat.mod_eq_of_lt ((rateQuotient_le _ g).trans_lt (by decide))

/-! ## Clamped velocities (00_scope.md R11; 43_ramp.md R186) -/

theorem toInt_clamp (v lo hi : Velocity) : (clamp v lo hi).toInt = clampInt v.toInt lo.toInt hi.toInt := by
  unfold clampInt
  rcases clamp_cases v lo hi with ⟨hlo, h⟩ | ⟨hlo, hhi, h⟩ | ⟨hlo, hhi, h⟩
  · rw [h, if_pos hlo]
  · rw [h, if_neg hlo, if_pos hhi]
  · rw [h, if_neg hlo, if_neg hhi]

theorem clampInt_eq_max_min {lo hi : Int} (h : lo ≤ hi) (v : Int) : clampInt v lo hi = max lo (min v hi) := by
  unfold clampInt
  split_ifs <;> omega

theorem toInt_boundVelocity (s : State) (v : Velocity) : (s.boundVelocity v).toInt =
    if s.rgBoundsEn then clampInt v.toInt s.rgMin.toInt s.rgMax.toInt else v.toInt := by
  rw [State.boundVelocity, apply_ite BitVec.toInt, toInt_clamp]

theorem toInt_boundVelocity_of_enforced {s : State} (hen : s.rgBoundsEn = true) (hle : s.rgMin.toInt ≤ s.rgMax.toInt)
    (v : Velocity) : (s.boundVelocity v).toInt = max s.rgMin.toInt (min v.toInt s.rgMax.toInt) := by
  rw [toInt_boundVelocity, if_pos hen, clampInt_eq_max_min hle]

/-- The velocity is one the bounds leave as it is: any at all unless they are enforced. -/
def InBounds (s : State) (v : Velocity) : Prop :=
  s.rgBoundsEn = true → s.rgMin.toInt ≤ v.toInt ∧ v.toInt ≤ s.rgMax.toInt

theorem inBounds_boundVelocity {s : State} (hle : s.rgMin.toInt ≤ s.rgMax.toInt) (v : Velocity) :
    InBounds s (s.boundVelocity v) := by
  intro hen
  rw [toInt_boundVelocity_of_enforced hen hle]
  omega

theorem boundVelocity_of_inBounds {s : State} {v : Velocity} (h : InBounds s v) : s.boundVelocity v = v := by
  unfold State.boundVelocity
  split
  · next hen =>
    obtain ⟨hmin, hmax⟩ := h hen
    rcases clamp_cases v s.rgMin s.rgMax with ⟨hlt, -⟩ | ⟨-, hgt, -⟩ | ⟨-, -, hclamp⟩
    · omega
    · omega
    · exact hclamp
  · rfl

/-! ## The operations as record updates -/

theorem exec_rgCur (s : State) : exec .rgCur s =
    .next { s with outputs := s.outputs ++ [.response .host .ok (s.rgCurrent.setWidth 64)] } := rfl

theorem exec_rgTgt (s : State) : exec .rgTgt s =
    .next { s with outputs := s.outputs ++ [.response .host .ok (s.rgTarget.setWidth 64)] } := rfl

theorem configRejected_iff {accel decel : Half} {mn mx : Velocity} :
    configRejected accel decel mn mx = true ↔ accel = 0#16 ∨ decel = 0#16 ∨ mn.toInt > mx.toInt := by
  simp [configRejected, asS16, or_assoc]

section Cfg

variable {accel decel : Half} {mn mx : Velocity} {be : Bool} {s : State}

theorem exec_rgCfg_of_rejected (h : configRejected accel decel mn mx = true) :
    exec (.rgCfg accel decel mn mx be) s =
      .next { s with outputs := s.outputs ++ [.response .host .errCfg 0#64] } := by
  simp only [exec, execRgCfg, if_pos h]
  rfl

theorem exec_rgCfg_of_accepted (h : ¬ configRejected accel decel mn mx = true) :
    exec (.rgCfg accel decel mn mx be) s = .next { s with
      rgAccelCmp := rateToCmp s.params.granularity accel, rgDecelCmp := rateToCmp s.params.granularity decel,
      rgMin := mn, rgMax := mx, rgBoundsEn := be, rgConfigured := true,
      outputs := s.outputs ++ [.response .host .ok 0#64] } := by
  simp only [exec, execRgCfg, if_neg h]
  rfl

end Cfg

section Sett

variable {v : Velocity} {s : State}

theorem exec_rgSett_of_unconfigured (h : s.rgConfigured = false) : exec (.rgSett v) s =
    .next { s with outputs := s.outputs ++ [.response .host .errNocfg 0#64] } := by
  simp [exec, execRgSett, h, State.emit]

theorem exec_rgSett_of_configured (h : s.rgConfigured = true) : exec (.rgSett v) s =
    .next ((s.setTargetVelocity v).emit (.response .host .ok 0#64)) := by
  simp [exec, execRgSett, h]

/-- The clamped target lies above: the ramp accelerates. -/
theorem exec_rgSett_of_above (hcfg : s.rgConfigured = true)
    (h : (s.boundVelocity v).toInt > (s.boundVelocity s.rgCurrent).toInt) :
    exec (.rgSett v) s = .next { s with
      rgTarget := s.boundVelocity v, rgCurrent := s.boundVelocity s.rgCurrent, rgDir := .acc,
      tmrCompare := s.rgAccelCmp, tmrRun := true,
      outputs := s.outputs ++ [.setPeriod s.rgAccelCmp, .timerStart, .response .host .ok 0#64] } := by
  rcases setTargetVelocity_cases s v with ⟨-, hset⟩ | ⟨hbelow, -⟩ | ⟨heq, -⟩
  · simp [exec_rgSett_of_configured hcfg, hset, State.emit]
  · omega
  · rw [heq] at h
    omega

/-- The clamped target lies below: the ramp decelerates. -/
theorem exec_rgSett_of_below (hcfg : s.rgConfigured = true)
    (h : (s.boundVelocity v).toInt < (s.boundVelocity s.rgCurrent).toInt) :
    exec (.rgSett v) s = .next { s with
      rgTarget := s.boundVelocity v, rgCurrent := s.boundVelocity s.rgCurrent, rgDir := .dec,
      tmrCompare := s.rgDecelCmp, tmrRun := true,
      outputs := s.outputs ++ [.setPeriod s.rgDecelCmp, .timerStart, .response .host .ok 0#64] } := by
  rcases setTargetVelocity_cases s v with ⟨habove, -⟩ | ⟨-, hset⟩ | ⟨heq, -⟩
  · omega
  · simp [exec_rgSett_of_configured hcfg, hset, State.emit]
  · rw [heq] at h
    omega

/-- The clamped target is met: the timer is stopped. -/
theorem exec_rgSett_of_met (hcfg : s.rgConfigured = true)
    (h : (s.boundVelocity v).toInt = (s.boundVelocity s.rgCurrent).toInt) :
    exec (.rgSett v) s = .next { s with
      rgTarget := s.boundVelocity v, rgCurrent := s.boundVelocity s.rgCurrent, tmrRun := false,
      outputs := s.outputs ++ [.timerStop, .response .host .ok 0#64] } := by
  rcases setTargetVelocity_cases s v with ⟨habove, -⟩ | ⟨hbelow, -⟩ | ⟨-, hset⟩
  · omega
  · omega
  · simp [exec_rgSett_of_configured hcfg, hset, State.emit]

end Sett

/-- The new velocity of an effective tick, as an integer (43_ramp.md R190). -/
def tickValue (s : State) : Int := (s.tickBounds s.tickStep).1

/-- The effective tick stops the timer: it met a bound, or the target on the clamped value (43_ramp.md R190). -/
def tickStops (s : State) : Bool := (s.tickBounds s.tickStep).2 || s.tickAtTarget (tickValue s)

theorem exec_tick_of_stopped {s : State} (h : s.tmrRun = false) : exec .tick s =
    .next { s with outputs := s.outputs ++ [.response .timer .ignored 0#64] } := by
  simp [exec, execTick, h, State.emit]

theorem exec_tick_of_running {s : State} (h : s.tmrRun = true) : exec .tick s = .next { s with
    rgCurrent := storeS16 (tickValue s), tmrRun := !tickStops s,
    outputs := s.outputs ++ (if tickStops s then [.timerStop] else []) ++
      [.vel (storeS16 (tickValue s)), .response .timer .ok 0#64] } := by
  have hexec : exec .tick s = .next (s.advance.emit (.response .timer .ok 0#64)) := by simp [exec, execTick, h]
  rw [hexec]
  rcases advance_cases s with ⟨hstop, hadv⟩ | ⟨hgo, hadv⟩
  · replace hstop : tickStops s = true := hstop
    simp [hadv, hstop, tickValue, State.emit]
  · replace hgo : tickStops s = false := hgo
    simp [hadv, hgo, tickValue, State.emit, h]

/-! ## What RG.SETT leads to (43_ramp.md R185, R186) -/

/-- The configuration in force is the same. -/
structure SameConfig (s t : State) : Prop where
  rgMin : t.rgMin = s.rgMin
  rgMax : t.rgMax = s.rgMax
  rgBoundsEn : t.rgBoundsEn = s.rgBoundsEn
  rgConfigured : t.rgConfigured = s.rgConfigured

theorem SameConfig.trans {s t u : State} (h : SameConfig s t) (k : SameConfig t u) : SameConfig s u :=
  ⟨k.rgMin.trans h.rgMin, k.rgMax.trans h.rgMax, k.rgBoundsEn.trans h.rgBoundsEn, k.rgConfigured.trans h.rgConfigured⟩

theorem SameConfig.inBounds_iff {s t : State} (h : SameConfig s t) {v : Velocity} : InBounds t v ↔ InBounds s v := by
  rw [InBounds, InBounds, h.rgMin, h.rgMax, h.rgBoundsEn]

theorem SameConfig.boundVelocity {s t : State} (h : SameConfig s t) (v : Velocity) :
    t.boundVelocity v = s.boundVelocity v := by
  rw [State.boundVelocity, State.boundVelocity, h.rgMin, h.rgMax, h.rgBoundsEn]

/-- `t` is what an RG.SETT of `v` that is not refused makes of `s`: both velocities clamped, and the direction and the timer
set by the clamped values. -/
structure RampSet (v : Velocity) (s t : State) : Prop where
  config : SameConfig s t
  rgTarget : t.rgTarget = s.boundVelocity v
  rgCurrent : t.rgCurrent = s.boundVelocity s.rgCurrent
  above : t.rgTarget.toInt > t.rgCurrent.toInt → t.rgDir = .acc ∧ t.tmrRun = true
  below : t.rgTarget.toInt < t.rgCurrent.toInt → t.rgDir = .dec ∧ t.tmrRun = true
  met : t.rgTarget.toInt = t.rgCurrent.toInt → t.rgDir = s.rgDir ∧ t.tmrRun = false
  noVelocity : t.outputs.filterMap velocityOf = s.outputs.filterMap velocityOf

theorem exists_rampSet {s : State} (hcfg : s.rgConfigured = true) (v : Velocity) :
    ∃ t, exec (.rgSett v) s = .next t ∧ RampSet v s t := by
  rcases lt_trichotomy (s.boundVelocity v).toInt (s.boundVelocity s.rgCurrent).toInt with hlt | heq | hgt
  · exact ⟨_, exec_rgSett_of_below hcfg hlt, ⟨rfl, rfl, rfl, rfl⟩, rfl, rfl, fun h => absurd h (lt_asymm hlt),
      fun _ => ⟨rfl, rfl⟩, fun h => absurd h (ne_of_lt hlt), by simp [velocityOf]⟩
  · exact ⟨_, exec_rgSett_of_met hcfg heq, ⟨rfl, rfl, rfl, rfl⟩, rfl, rfl, fun h => absurd heq (ne_of_gt h),
      fun h => absurd heq (ne_of_lt h), fun _ => ⟨rfl, rfl⟩, by simp [velocityOf]⟩
  · exact ⟨_, exec_rgSett_of_above hcfg hgt, ⟨rfl, rfl, rfl, rfl⟩, rfl, rfl, fun _ => ⟨rfl, rfl⟩,
      fun h => absurd h (lt_asymm hgt), fun h => absurd h (ne_of_gt hgt), by simp [velocityOf]⟩

theorem rampSet_of_exec {s t : State} {v : Velocity} (hcfg : s.rgConfigured = true) (h : exec (.rgSett v) s = .next t) :
    RampSet v s t := by
  obtain ⟨u, hu, hset⟩ := exists_rampSet hcfg v
  obtain rfl := Host.Outcome.next.inj (h.symm.trans hu)
  exact hset

/-! ## What an effective tick leads to (43_ramp.md R190, R192) -/

theorem toInt_range (v : Velocity) : -32768 ≤ v.toInt ∧ v.toInt ≤ 32767 := by
  have hlo := v.le_two_mul_toInt
  have hhi := v.two_mul_toInt_lt
  omega

theorem tickStep_of_acc {s : State} (h : s.rgDir = .acc) : s.tickStep = s.rgCurrent.toInt + 1 := by
  rw [State.tickStep, h]
  rfl

theorem tickStep_of_dec {s : State} (h : s.rgDir = .dec) : s.tickStep = s.rgCurrent.toInt - 1 := by
  rw [State.tickStep, h]
  rfl

theorem tickAtTarget_of_acc {s : State} (h : s.rgDir = .acc) (n : Int) :
    s.tickAtTarget n = true ↔ n ≥ s.rgTarget.toInt := by
  rw [State.tickAtTarget, h]
  exact decide_eq_true_iff

theorem tickAtTarget_of_dec {s : State} (h : s.rgDir = .dec) (n : Int) :
    s.tickAtTarget n = true ↔ n ≤ s.rgTarget.toInt := by
  rw [State.tickAtTarget, h]
  exact decide_eq_true_iff

/-- The bounds of a tick, written out. -/
theorem tickBounds_eq (s : State) (n : Int) : s.tickBounds n = if s.rgBoundsEn then
      if n ≥ s.rgMax.toInt then (s.rgMax.toInt, true) else if n ≤ s.rgMin.toInt then (s.rgMin.toInt, true) else (n, false)
    else (n, false) := rfl

/-- A tick ends on a bound that its step reaches or passes, and stops; or it ends where it stepped to, and the target alone
stops it. -/
theorem tickValue_cases (s : State) :
    (s.rgBoundsEn = true ∧ s.tickStep ≥ s.rgMax.toInt ∧ tickValue s = s.rgMax.toInt ∧ tickStops s = true) ∨
    (s.rgBoundsEn = true ∧ s.tickStep ≤ s.rgMin.toInt ∧ tickValue s = s.rgMin.toInt ∧ tickStops s = true) ∨
    ((s.rgBoundsEn = true → s.rgMin.toInt < s.tickStep ∧ s.tickStep < s.rgMax.toInt) ∧
      tickValue s = s.tickStep ∧ tickStops s = s.tickAtTarget (tickValue s)) := by
  unfold tickStops tickValue
  by_cases hen : s.rgBoundsEn = true
  · by_cases hmax : s.tickStep ≥ s.rgMax.toInt
    · have hbounds : s.tickBounds s.tickStep = (s.rgMax.toInt, true) := by rw [tickBounds_eq, if_pos hen, if_pos hmax]
      rw [hbounds]
      exact .inl ⟨hen, hmax, rfl, rfl⟩
    · by_cases hmin : s.tickStep ≤ s.rgMin.toInt
      · have hbounds : s.tickBounds s.tickStep = (s.rgMin.toInt, true) := by
          rw [tickBounds_eq, if_pos hen, if_neg hmax, if_pos hmin]
        rw [hbounds]
        exact .inr (.inl ⟨hen, hmin, rfl, rfl⟩)
      · have hbounds : s.tickBounds s.tickStep = (s.tickStep, false) := by
          rw [tickBounds_eq, if_pos hen, if_neg hmax, if_neg hmin]
        rw [hbounds]
        exact .inr (.inr ⟨fun _ => ⟨not_le.mp hmin, not_le.mp hmax⟩, rfl, rfl⟩)
  · have hbounds : s.tickBounds s.tickStep = (s.tickStep, false) := by rw [tickBounds_eq, if_neg hen]
    rw [hbounds]
    exact .inr (.inr ⟨fun h => absurd h hen, rfl, rfl⟩)

section EffectiveTick

variable {s : State} (hinv : RampInv s) (hrun : s.tmrRun = true)
include hinv hrun

/-- A running ramp is configured, so its bounds are in order (10_state.md R40 a, d). -/
theorem min_le_max_of_running : s.rgMin.toInt ≤ s.rgMax.toInt := by
  obtain ⟨hstopped, -, -, hbounds⟩ := hinv
  cases hcfg : s.rgConfigured with
  | true => exact hbounds hcfg
  | false => exact absurd hrun (Bool.eq_false_iff.mp (hstopped hcfg))

/-- The target is still ahead, so the unit step stays in 16 bits (10_state.md R40 b, c). -/
theorem tickStep_range : -32768 ≤ s.tickStep ∧ s.tickStep ≤ 32767 := by
  obtain ⟨-, hacc, hdec, -⟩ := hinv
  have hcur := toInt_range s.rgCurrent
  have htgt := toInt_range s.rgTarget
  cases hdir : s.rgDir with
  | acc =>
    have hahead := hacc hrun hdir
    rw [tickStep_of_acc hdir]
    omega
  | dec =>
    have hahead := hdec hrun hdir
    rw [tickStep_of_dec hdir]
    omega

theorem tickValue_range : -32768 ≤ tickValue s ∧ tickValue s ≤ 32767 := by
  rcases tickValue_cases s with ⟨-, -, hv, -⟩ | ⟨-, -, hv, -⟩ | ⟨-, hv, -⟩ <;> rw [hv]
  · exact toInt_range s.rgMax
  · exact toInt_range s.rgMin
  · exact tickStep_range hinv hrun

/-- The value of a tick is the one stored. -/
theorem toInt_storeS16_tickValue : (storeS16 (tickValue s)).toInt = tickValue s := by
  obtain ⟨hlo, hhi⟩ := tickValue_range hinv hrun
  exact storeS16_toInt hlo hhi

end EffectiveTick

/-- `t` is what an effective tick makes of `s` when the ramp invariants hold. -/
structure Advanced (s t : State) : Prop where
  config : SameConfig s t
  rgTarget : t.rgTarget = s.rgTarget
  rgDir : t.rgDir = s.rgDir
  toInt_rgCurrent : t.rgCurrent.toInt = tickValue s
  tmrRun : t.tmrRun = !tickStops s
  velocities : t.outputs.filterMap velocityOf = s.outputs.filterMap velocityOf ++ [t.rgCurrent]

theorem exists_advanced {s : State} (hinv : RampInv s) (hrun : s.tmrRun = true) :
    ∃ t, exec .tick s = .next t ∧ Advanced s t := by
  refine ⟨_, exec_tick_of_running hrun, ⟨rfl, rfl, rfl, rfl⟩, rfl, rfl, toInt_storeS16_tickValue hinv hrun, rfl, ?_⟩
  cases tickStops s <;> simp [velocityOf, List.filterMap_cons]

theorem advanced_of_exec {s t : State} (hinv : RampInv s) (hrun : s.tmrRun = true) (h : exec .tick s = .next t) :
    Advanced s t := by
  obtain ⟨u, hu, hadv⟩ := exists_advanced hinv hrun
  obtain rfl := Host.Outcome.next.inj (h.symm.trans hu)
  exact hadv

end Sys2Proof.Laws
end

section
/-!
PROOFS. The ramp, one operation at a time: every operation keeps the ramp invariants of 10_state.md R40, none but RG.SETT
writes the period, and the statements about RG.CFG, RG.SETT, TICK, RG.CUR and RG.TGT.
-/

namespace Sys2Proof.Laws

open Sys2Proof.Machine

/-! ## What the operations of the other blocks keep -/

/-- The registers of the ramp and of its timer are the same. -/
structure RampKept (s t : State) : Prop where
  rgCurrent : t.rgCurrent = s.rgCurrent
  rgTarget : t.rgTarget = s.rgTarget
  rgDir : t.rgDir = s.rgDir
  rgMin : t.rgMin = s.rgMin
  rgMax : t.rgMax = s.rgMax
  rgBoundsEn : t.rgBoundsEn = s.rgBoundsEn
  rgAccelCmp : t.rgAccelCmp = s.rgAccelCmp
  rgDecelCmp : t.rgDecelCmp = s.rgDecelCmp
  rgConfigured : t.rgConfigured = s.rgConfigured
  tmrRun : t.tmrRun = s.tmrRun
  tmrCompare : t.tmrCompare = s.tmrCompare

theorem closeFrame_keeps_ramp (s : State) : RampKept s s.closeFrame := by
  rcases closeFrame_cases s with ⟨-, -, h⟩ | ⟨-, -, h⟩ | ⟨-, h⟩ <;> rw [h] <;> constructor <;> rfl

theorem receive_keeps_ramp (s : State) (b : Byte) : RampKept s (s.receive b) := by
  rcases receive_cases s b with ⟨-, -, h⟩ | ⟨-, -, h⟩ | ⟨-, -, h⟩ | ⟨-, -, h⟩
  · rw [h]; constructor <;> rfl
  · rw [h]; constructor <;> rfl
  · rw [h]; constructor <;> rfl
  · rw [h]
    exact { closeFrame_keeps_ramp { s with fdBuf := s.fdBuf.write 7#3 b } with }

theorem workOf_keeps_ramp {i : Instr} (hi : blockOf i ≠ .ramp) (s : State) : RampKept s (workOf i s) := by
  cases i with
  | rxByte b => exact receive_keeps_ramp s b
  | stPop => simp only [workOf]; split <;> constructor <;> rfl
  | rgCfg | rgSett | rgCur | rgTgt | tick => exact absurd rfl hi
  | crcInit | crcByte | crcRead | stLen | stOvf => constructor <;> rfl

/-- No operation of another block writes a register of the ramp or of its timer (60_exceptions.md R229). -/
theorem exec_keeps_ramp {i : Instr} {s t : State} (hi : blockOf i ≠ .ramp) (h : exec i s = .next t) : RampKept s t := by
  obtain ⟨st, d, rfl⟩ := eq_respond_of_exec h
  exact { workOf_keeps_ramp hi s with }

/-! ## The ramp invariants (10_state.md R40) -/

theorem RampKept.rampInv {s t : State} (h : RampKept s t) (hinv : RampInv s) : RampInv t := by
  unfold RampInv
  rwa [h.rgConfigured, h.tmrRun, h.rgDir, h.rgCurrent, h.rgTarget, h.rgMin, h.rgMax]

/-- RG.CFG moves neither a velocity nor the timer, and accepts only bounds in order (43_ramp.md R181, R183). -/
theorem exec_rgCfg_keeps_rampInv {s t : State} {accel decel : Half} {mn mx : Velocity} {be : Bool} (hinv : RampInv s)
    (h : exec (.rgCfg accel decel mn mx be) s = .next t) : RampInv t := by
  by_cases hrej : configRejected accel decel mn mx = true
  · obtain rfl := Host.Outcome.next.inj ((exec_rgCfg_of_rejected hrej).symm.trans h)
    exact hinv
  · obtain rfl := Host.Outcome.next.inj ((exec_rgCfg_of_accepted hrej).symm.trans h)
    obtain ⟨-, hacc, hdec, -⟩ := hinv
    have hle : mn.toInt ≤ mx.toInt := by
      by_contra hgt
      exact hrej (configRejected_iff.mpr (.inr (.inr (by omega))))
    exact ⟨nofun, hacc, hdec, fun _ => hle⟩

/-- RG.SETT starts the timer only in the direction of a target that differs (43_ramp.md R185). -/
theorem RampSet.rampInv {v : Velocity} {s t : State} (h : RampSet v s t) (hinv : RampInv s)
    (hcfg : s.rgConfigured = true) : RampInv t := by
  obtain ⟨-, -, -, hbounds⟩ := hinv
  have hunconfigured : t.rgConfigured = false → t.tmrRun = false := fun hno =>
    absurd (h.config.rgConfigured.trans hcfg) (Bool.eq_false_iff.mp hno)
  have hle : t.rgConfigured = true → t.rgMin.toInt ≤ t.rgMax.toInt := fun _ => by
    rw [h.config.rgMin, h.config.rgMax]
    exact hbounds hcfg
  rcases lt_trichotomy t.rgTarget.toInt t.rgCurrent.toInt with hlt | heq | hgt
  · obtain ⟨hdec, -⟩ := h.below hlt
    exact ⟨hunconfigured, fun _ hacc => absurd (hdec.symm.trans hacc) nofun, fun _ _ => hlt, hle⟩
  · obtain ⟨-, hstopped⟩ := h.met heq
    have hnot : ¬ t.tmrRun = true := Bool.eq_false_iff.mp hstopped
    exact ⟨hunconfigured, fun hrun => absurd hrun hnot, fun hrun => absurd hrun hnot, hle⟩
  · obtain ⟨hacc, -⟩ := h.above hgt
    exact ⟨hunconfigured, fun _ _ => hgt, fun _ hdec => absurd (hacc.symm.trans hdec) nofun, hle⟩

/-- A tick that does not stop leaves the target ahead, since it tested the target on the value it stored. -/
theorem Advanced.rampInv {s t : State} (h : Advanced s t) (hinv : RampInv s) (hrun : s.tmrRun = true) : RampInv t := by
  have hle := min_le_max_of_running hinv hrun
  obtain ⟨hstopped, -, -, -⟩ := hinv
  have hahead : t.tmrRun = true → ¬ s.tickAtTarget (tickValue s) = true := by
    rw [h.tmrRun, tickStops]
    simp
  refine ⟨fun hno => ?unconfigured, fun hgo hdir => ?above, fun hgo hdir => ?below, fun _ => ?bounds⟩
  case unconfigured =>
    rw [h.config.rgConfigured] at hno
    exact absurd hrun (Bool.eq_false_iff.mp (hstopped hno))
  case above =>
    have hnot := hahead hgo
    rw [tickAtTarget_of_acc (h.rgDir.symm.trans hdir)] at hnot
    rw [h.toInt_rgCurrent, h.rgTarget]
    exact not_le.mp hnot
  case below =>
    have hnot := hahead hgo
    rw [tickAtTarget_of_dec (h.rgDir.symm.trans hdir)] at hnot
    rw [h.toInt_rgCurrent, h.rgTarget]
    exact not_le.mp hnot
  case bounds => rwa [h.config.rgMin, h.config.rgMax]

/-- Every operation keeps the ramp invariants. -/
theorem exec_keeps_rampInv {i : Instr} {s t : State} (hinv : RampInv s) (h : exec i s = .next t) : RampInv t := by
  by_cases hi : blockOf i = .ramp
  · cases i with
    | rgCfg => exact exec_rgCfg_keeps_rampInv hinv h
    | rgSett v =>
      cases hcfg : s.rgConfigured with
      | true => exact (rampSet_of_exec hcfg h).rampInv hinv hcfg
      | false =>
        obtain rfl := Host.Outcome.next.inj ((exec_rgSett_of_unconfigured hcfg).symm.trans h)
        exact hinv
    | tick =>
      cases hrun : s.tmrRun with
      | true => exact (advanced_of_exec hinv hrun h).rampInv hinv hrun
      | false =>
        obtain rfl := Host.Outcome.next.inj ((exec_tick_of_stopped hrun).symm.trans h)
        exact hinv
    | rgCur | rgTgt =>
      obtain rfl := Host.Outcome.next.inj h
      exact hinv
    | crcInit | crcByte | crcRead | rxByte | stPop | stLen | stOvf => cases hi
  · exact (exec_keeps_ramp hi h).rampInv hinv

/-! ## The period (10_state.md R39) -/

theorem exec_keeps_period {i : Instr} {s t : State} (hi : ∀ v, i ≠ .rgSett v) (h : exec i s = .next t) :
    t.tmrCompare = s.tmrCompare := by
  by_cases hblock : blockOf i = .ramp
  · obtain ⟨st, d, rfl⟩ := eq_respond_of_exec h
    change (workOf i s).tmrCompare = s.tmrCompare
    cases i with
    | rgCfg => simp only [workOf]; split <;> rfl
    | rgSett v => exact absurd rfl (hi v)
    | rgCur | rgTgt => rfl
    | tick =>
      simp only [workOf]
      split
      · rcases advance_cases s with ⟨-, hadv⟩ | ⟨-, hadv⟩ <;> rw [hadv]
      · rfl
    | crcInit | crcByte | crcRead | rxByte | stPop | stLen | stOvf => cases hblock
  · exact (exec_keeps_ramp hblock h).tmrCompare

/-- What each operation of a sequence keeps, the sequence keeps. -/
theorem execAll_keeps {P : State → Prop} {ops : List Instr}
    (hkeep : ∀ i ∈ ops, ∀ s t, P s → exec i s = .next t → P t) {s t : State} (hs : P s) (h : execAll ops s = .next t) :
    P t := by
  induction ops generalizing s with
  | nil =>
    obtain rfl := Host.Outcome.next.inj h
    exact hs
  | cons i rest ih =>
    obtain ⟨u, hu, hrest⟩ := andThen_eq_next h
    have hP : P u := hkeep i List.mem_cons_self s u hs hu
    exact ih (fun j hj => hkeep j (List.mem_cons_of_mem i hj)) hP hrest

/-! ## The statements -/

/-- Settles O18: while the timer runs the target lies strictly ahead of a velocity, so one unit towards it fits. -/
theorem rampInvariantsAndNoOverflow : Obligations.RampInvariantsAndNoOverflow := by
  refine ⟨fun p => ?reset, fun i s t => exec_keeps_rampInv, fun s hinv hrun => ?noOverflow⟩
  case reset =>
    exact ⟨fun _ => rfl, nofun, nofun, nofun⟩
  case noOverflow =>
    obtain ⟨hlo, hhi⟩ := tickStep_range hinv hrun
    obtain ⟨-, hacc, hdec, -⟩ := hinv
    refine ⟨fun hdir => ⟨hacc hrun hdir, ?_⟩, fun hdir => ⟨Int.le_sub_one_of_lt (hdec hrun hdir), ?_⟩⟩
    · rwa [tickStep_of_acc hdir] at hhi
    · rwa [tickStep_of_dec hdir] at hlo

/-- Settles O48: the two divisions are one by `r * g`, whose quotient `q` has `q * (r * g) ≤ 1000000 < (q + 1) * (r * g)`. -/
theorem rateConversion : Obligations.RateConversion := by
  intro g r hg hr
  have hr0 : 0 < r.toNat := by
    rw [Nat.pos_iff_ne_zero]
    exact fun h => hr (BitVec.eq_of_toNat_eq h)
  rw [toNat_rateToCmp]
  refine ⟨rfl, rateQuotient_le _ g, ?notAbove, ?lessThanOneBelow⟩
  all_goals rw [Nat.div_div_eq_div_mul]
  case notAbove =>
    calc 1000000 / (r.toNat * g) * g * r.toNat = 1000000 / (r.toNat * g) * (r.toNat * g) := by ring
      _ ≤ 1000000 := Nat.div_mul_le_self _ _
  case lessThanOneBelow =>
    calc 1000000 < 1000000 / (r.toNat * g) * (r.toNat * g) + r.toNat * g := Nat.lt_div_mul_add (Nat.mul_pos hr0 hg)
      _ = (1000000 / (r.toNat * g) * g + g) * r.toNat := by ring

/-- Settles O49. -/
theorem cfgLoadsOrRefuses : Obligations.CfgLoadsOrRefuses := by
  intro accel decel mn mx be s _
  refine ⟨isWordOf_encode (.rgCfg accel decel mn mx be), fun hbad => ?refused, fun ⟨haccel, hdecel, hle⟩ => ?loaded⟩
  case refused => exact exec_rgCfg_of_rejected (configRejected_iff.mpr hbad)
  case loaded =>
    refine ⟨_, _, toNat_rateToCmp _ accel, toNat_rateToCmp _ decel, exec_rgCfg_of_accepted ?_⟩
    rw [configRejected_iff]
    rintro (h | h | h)
    · exact haccel h
    · exact hdecel h
    · exact not_lt.mpr hle h

/-- Settles O50. -/
theorem settStartsRedirectsOrCancels : Obligations.SettStartsRedirectsOrCancels := fun t s =>
  ⟨isWordOf_encode (.rgSett t), exec_rgSett_of_unconfigured, fun hcfg =>
    ⟨s.boundVelocity t, s.boundVelocity s.rgCurrent, toInt_boundVelocity s t, toInt_boundVelocity s s.rgCurrent,
      exec_rgSett_of_above hcfg, exec_rgSett_of_below hcfg, exec_rgSett_of_met hcfg⟩⟩

/-- Settles O51. -/
theorem settClampsTargetAndCurrent : Obligations.SettClampsTargetAndCurrent := by
  intro v s hcfg hen hle
  obtain ⟨t, hexec, hset⟩ := exists_rampSet hcfg v
  refine ⟨t, hexec, ?target, ?current, hset.above, hset.below, hset.met, exec_rgTgt t⟩
  case target => rw [hset.rgTarget, toInt_boundVelocity_of_enforced hen hle]
  case current => rw [hset.rgCurrent, toInt_boundVelocity_of_enforced hen hle]

/-- Settles O52: the value and the stop of the model's tick are those of the statement. -/
theorem tickStepsClampsAndStops : Obligations.TickStepsClampsAndStops := by
  refine ⟨isWordOf_encode .tick, fun s => exec_tick_of_stopped, fun s hinv hrun => ?effective⟩
  case effective =>
    refine ⟨s.tickStep, tickValue s, (s.tickBounds s.tickStep).2, tickStops s, storeS16 (tickValue s), ?step,
      tickBounds_eq s s.tickStep, ?stop, toInt_storeS16_tickValue hinv hrun, exec_tick_of_running hrun⟩
    case step =>
      cases hdir : s.rgDir with
      | acc => exact tickStep_of_acc hdir
      | dec => exact tickStep_of_dec hdir
    case stop =>
      rw [tickStops, Bool.or_eq_true]
      cases hdir : s.rgDir with
      | acc => simp [tickAtTarget_of_acc hdir]
      | dec => simp [tickAtTarget_of_dec hdir]

/-- Settles O53: the value of a tick is a bound, and then the timer stops, or it lies strictly between the bounds. -/
theorem anEffectiveTickEndsInsideTheBounds : Obligations.AnEffectiveTickEndsInsideTheBounds := by
  intro s t hinv hrun hen h
  have hadv := advanced_of_exec hinv hrun h
  have hle := min_le_max_of_running hinv hrun
  have hcur := hadv.toInt_rgCurrent
  have hstopped : tickStops s = true → t.tmrRun = false := fun hstop => by rw [hadv.tmrRun, hstop]; rfl
  rcases tickValue_cases s with ⟨-, -, hv, hstop⟩ | ⟨-, -, hv, hstop⟩ | ⟨hbetween, hv, -⟩
  · exact ⟨by omega, by omega, fun _ => hstopped hstop, hadv.rgTarget⟩
  · exact ⟨by omega, by omega, fun _ => hstopped hstop, hadv.rgTarget⟩
  · obtain ⟨hmin, hmax⟩ := hbetween hen
    refine ⟨by omega, by omega, ?short, hadv.rgTarget⟩
    case short => rintro (hmeet | hmeet) <;> rw [hmeet] at hcur <;> omega

/-- Settles O54: `exec_events` says which velocities an operation emits. -/
theorem velocitiesExactlyAtEffectiveTicks : Obligations.VelocitiesExactlyAtEffectiveTicks := by
  intro i s t evs h hevs
  have hvels : evs.filterMap velocityOf = velsOf i s := by
    obtain ⟨evs', -, hevs', -, hvel, -⟩ := exec_events h
    obtain rfl : evs = evs' := List.append_cancel_left (hevs.symm.trans hevs')
    exact hvel
  have hcond : (i == .tick && s.tmrRun) = true ↔ i = .tick ∧ s.tmrRun = true := by simp
  rw [hvels, velsOf, ← hcond]
  refine ⟨fun htick => ?emitted, fun hnone => if_neg hnone⟩
  case emitted =>
    rw [if_pos htick]
    obtain ⟨st, d, rfl⟩ := eq_respond_of_exec h
    rfl

/-- Settles O58. -/
theorem onlySettChangesThePeriod : Obligations.OnlySettChangesThePeriod := by
  intro s t ops hops h
  refine execAll_keeps (P := fun u => u.tmrCompare = s.tmrCompare) (fun i hi a b ha hab => ?_) rfl h
  exact (exec_keeps_period (hops i hi) hab).trans ha

/-- Settles O55. -/
theorem curAndTgtAnswerTheVelocities : Obligations.CurAndTgtAnswerTheVelocities :=
  ⟨isWordOf_encode .rgCur, isWordOf_encode .rgTgt, fun s =>
    ⟨_, _, exec_rgCur s, exec_rgTgt s, BitVec.toNat_setWidth_of_le (by decide), BitVec.toNat_setWidth_of_le (by decide)⟩⟩

end Sys2Proof.Laws
end

section
/-!
PROOFS. A ramp left alone. RG.SETT puts both velocities inside the bounds and starts the timer exactly when they differ; ticks
keep this (`OnCourse`), each bringing the velocity one unit nearer to the target, so a ramp runs for its distance in ticks.
-/

namespace Sys2Proof.Laws

open Sys2Proof.Machine

/-! ## On course -/

/-- A configured ramp whose timer runs exactly while the target is not reached, with nothing left for the bounds to clamp. -/
structure OnCourse (s : State) : Prop where
  inv : RampInv s
  configured : s.rgConfigured = true
  runs_iff : s.tmrRun = true ↔ s.rgCurrent.toInt ≠ s.rgTarget.toInt
  current_inBounds : InBounds s s.rgCurrent
  target_inBounds : InBounds s s.rgTarget

/-- The configuration and the target are the same. -/
structure SameCourse (s t : State) : Prop where
  config : SameConfig s t
  rgTarget : t.rgTarget = s.rgTarget

theorem SameCourse.trans {s t u : State} (h : SameCourse s t) (k : SameCourse t u) : SameCourse s u :=
  ⟨h.config.trans k.config, k.rgTarget.trans h.rgTarget⟩

/-- An RG.SETT that is not refused puts the ramp on course (43_ramp.md R185, R186). -/
theorem RampSet.onCourse {v : Velocity} {s t : State} (h : RampSet v s t) (hinv : RampInv s)
    (hcfg : s.rgConfigured = true) : OnCourse t := by
  refine ⟨h.rampInv hinv hcfg, h.config.rgConfigured.trans hcfg, ?runs, ?current, ?target⟩
  case runs =>
    rcases lt_trichotomy t.rgTarget.toInt t.rgCurrent.toInt with hlt | heq | hgt
    · exact iff_of_true (h.below hlt).2 hlt.ne'
    · exact iff_of_false (Bool.eq_false_iff.mp (h.met heq).2) (not_not_intro heq.symm)
    · exact iff_of_true (h.above hgt).2 hgt.ne
  all_goals
    obtain ⟨-, -, -, hbounds⟩ := hinv
    rw [h.config.inBounds_iff]
  case current => exact h.rgCurrent ▸ inBounds_boundVelocity (hbounds hcfg) s.rgCurrent
  case target => exact h.rgTarget ▸ inBounds_boundVelocity (hbounds hcfg) v

/-! ## One tick -/

section Tick

variable {s t : State} (h : OnCourse s)
include h

/-- The step of a tick is one unit towards the target. -/
theorem OnCourse.tickStep_eq (hrun : s.tmrRun = true) :
    s.tickStep = s.rgCurrent.toInt + (s.rgTarget.toInt - s.rgCurrent.toInt).sign := by
  obtain ⟨-, hacc, hdec, -⟩ := h.inv
  cases hdir : s.rgDir with
  | acc =>
    have hahead := hacc hrun hdir
    rw [tickStep_of_acc hdir, Int.sign_eq_one_of_pos (by omega)]
  | dec =>
    have hahead := hdec hrun hdir
    rw [tickStep_of_dec hdir, Int.sign_eq_neg_one_of_neg (by omega)]
    rfl

/-- The bounds hold both velocities, so a unit step towards the target needs no clamp, and meets a bound only where the target
is. -/
theorem OnCourse.tick_unclamped (hrun : s.tmrRun = true) :
    tickValue s = s.tickStep ∧ (tickStops s = true ↔ s.tickStep = s.rgTarget.toInt) := by
  obtain ⟨-, hacc, hdec, -⟩ := h.inv
  have hcur := h.current_inBounds
  have htgt := h.target_inBounds
  cases hdir : s.rgDir with
  | acc =>
    have hahead := hacc hrun hdir
    have hstep := tickStep_of_acc hdir
    rcases tickValue_cases s with ⟨hen, hmax, hv, hstop⟩ | ⟨hen, hmin, hv, hstop⟩ | ⟨-, hv, hstop⟩
    · have := htgt hen
      exact ⟨by omega, iff_of_true hstop (by omega)⟩
    · have := hcur hen
      omega
    · rw [hstop, hv, tickAtTarget_of_acc hdir]
      exact ⟨rfl, by omega⟩
  | dec =>
    have hahead := hdec hrun hdir
    have hstep := tickStep_of_dec hdir
    rcases tickValue_cases s with ⟨hen, hmax, hv, hstop⟩ | ⟨hen, hmin, hv, hstop⟩ | ⟨-, hv, hstop⟩
    · have := hcur hen
      omega
    · have := htgt hen
      exact ⟨by omega, iff_of_true hstop (by omega)⟩
    · rw [hstop, hv, tickAtTarget_of_dec hdir]
      exact ⟨rfl, by omega⟩

/-- An effective tick brings the velocity one unit nearer to the target. -/
theorem OnCourse.toInt_rgCurrent (hrun : s.tmrRun = true) (hadv : Advanced s t) :
    t.rgCurrent.toInt = s.rgCurrent.toInt + (s.rgTarget.toInt - s.rgCurrent.toInt).sign := by
  obtain ⟨hv, -⟩ := h.tick_unclamped hrun
  rw [hadv.toInt_rgCurrent, hv, h.tickStep_eq hrun]

theorem OnCourse.advanced (hrun : s.tmrRun = true) (hadv : Advanced s t) : OnCourse t := by
  obtain ⟨hv, hstop⟩ := h.tick_unclamped hrun
  refine ⟨hadv.rampInv h.inv hrun, hadv.config.rgConfigured.trans h.configured, ?runs, ?current, ?target⟩
  case runs =>
    rw [hadv.toInt_rgCurrent, hv, hadv.rgTarget, hadv.tmrRun, Ne, ← hstop]
    simp
  case current =>
    rw [hadv.config.inBounds_iff]
    intro hen
    have hcur := h.current_inBounds hen
    have htgt := h.target_inBounds hen
    have hne := h.runs_iff.mp hrun
    have hnew := h.toInt_rgCurrent hrun hadv
    rcases lt_or_gt_of_ne hne with hlt | hgt
    · rw [Int.sign_eq_one_of_pos (by omega)] at hnew
      omega
    · rw [Int.sign_eq_neg_one_of_neg (by omega)] at hnew
      omega
  case target =>
    rw [hadv.config.inBounds_iff, hadv.rgTarget]
    exact h.target_inBounds

theorem OnCourse.exec_tick (hexec : exec .tick s = .next t) : OnCourse t ∧ SameCourse s t := by
  cases hrun : s.tmrRun with
  | true =>
    have hadv := advanced_of_exec h.inv hrun hexec
    exact ⟨h.advanced hrun hadv, hadv.config, hadv.rgTarget⟩
  | false =>
    obtain rfl := Host.Outcome.next.inj ((exec_tick_of_stopped hrun).symm.trans hexec)
    exact ⟨⟨h.inv, h.configured, h.runs_iff, h.current_inBounds, h.target_inBounds⟩, ⟨rfl, rfl, rfl, rfl⟩, rfl⟩

end Tick

/-! ## Any number of ticks -/

theorem OnCourse.execAll_ticks {s t : State} {n : Nat} (h : OnCourse s) (hexec : execAll (ticks n) s = .next t) :
    OnCourse t ∧ SameCourse s t := by
  refine execAll_keeps (P := fun u => OnCourse u ∧ SameCourse s u) (fun i hi a b ha hab => ?_)
    ⟨h, ⟨rfl, rfl, rfl, rfl⟩, rfl⟩ hexec
  obtain ⟨hcourse, hsame⟩ := ha
  rw [List.eq_of_mem_replicate hi] at hab
  obtain ⟨hcourse', hsame'⟩ := hcourse.exec_tick hab
  exact ⟨hcourse', hsame.trans hsame'⟩

theorem execAll_ticks_of_stopped {s : State} (hrun : s.tmrRun = false) (n : Nat) : execAll (ticks n) s =
    .next { s with outputs := s.outputs ++ List.replicate n (.response .timer .ignored 0#64) } := by
  induction n generalizing s with
  | zero => simp [ticks]
  | succ n ih =>
    rw [ticks, List.replicate_succ, execAll_cons, exec_tick_of_stopped hrun, andThen_next, ← ticks, ih (by exact hrun)]
    simp [List.replicate_succ]

/-- Short of the whole distance, units towards `g` have not reached it. -/
theorem along_ne_iff {c g : Int} {k : Nat} (hk : k ≤ (g - c).natAbs) :
    c + k * (g - c).sign ≠ g ↔ k < (g - c).natAbs := by
  rcases lt_trichotomy (g - c) 0 with h | h | h
  · rw [Int.sign_eq_neg_one_of_neg h]
    omega
  · rw [h, Int.sign_zero]
    omega
  · rw [Int.sign_eq_one_of_pos h]
    omega

/-- Short of the whole distance, `g` still lies on the same side. -/
theorem sign_sub_along {c g : Int} {k : Nat} (hk : k < (g - c).natAbs) :
    (g - (c + k * (g - c).sign)).sign = (g - c).sign := by
  rcases lt_trichotomy (g - c) 0 with h | h | h
  · rw [Int.sign_eq_neg_one_of_neg h, Int.sign_eq_neg_one_of_neg (by omega)]
  · omega
  · rw [Int.sign_eq_one_of_pos h, Int.sign_eq_one_of_pos (by omega)]

/-- The velocities, read as integers, that a state has sent out. -/
def sentVelocities (s : State) : List Int := (s.outputs.filterMap velocityOf).map BitVec.toInt

theorem Advanced.sentVelocities {s t : State} (h : Advanced s t) :
    sentVelocities t = sentVelocities s ++ [t.rgCurrent.toInt] := by
  rw [Laws.sentVelocities, h.velocities, List.map_append]
  rfl

/-- Within its distance a ramp on course makes one unit a tick and sends each value it reaches (43_ramp.md R200). -/
theorem OnCourse.execAll_ticks_within {s : State} (h : OnCourse s) {k : Nat}
    (hk : k ≤ (s.rgTarget.toInt - s.rgCurrent.toInt).natAbs) :
    ∃ u, execAll (ticks k) s = .next u ∧
      u.rgCurrent.toInt = s.rgCurrent.toInt + k * (s.rgTarget.toInt - s.rgCurrent.toInt).sign ∧
      sentVelocities u = sentVelocities s ++ (List.range k).map (fun j : Nat =>
        s.rgCurrent.toInt + ((j : Int) + 1) * (s.rgTarget.toInt - s.rgCurrent.toInt).sign) := by
  induction k with
  | zero => exact ⟨s, rfl, by simp, by simp⟩
  | succ k ih =>
    obtain ⟨u, hu, hcur, hsent⟩ := ih (by omega)
    obtain ⟨hcourse, hsame⟩ := h.execAll_ticks hu
    have hrun : u.tmrRun = true := by
      rw [hcourse.runs_iff, hcur, hsame.rgTarget]
      exact (along_ne_iff (by omega)).mpr hk
    obtain ⟨t, ht, hadv⟩ := exists_advanced hcourse.inv hrun
    have hnew : t.rgCurrent.toInt =
        s.rgCurrent.toInt + ((k : Int) + 1) * (s.rgTarget.toInt - s.rgCurrent.toInt).sign := by
      rw [hcourse.toInt_rgCurrent hrun hadv, hsame.rgTarget, hcur, sign_sub_along hk]
      ring
    refine ⟨t, ?run, by exact_mod_cast hnew, ?sent⟩
    case run =>
      rw [ticks, List.replicate_succ', execAll_append, ← ticks, hu]
      simp [ht]
    case sent => rw [hadv.sentVelocities, hsent, List.range_succ, List.map_append, ← List.append_assoc, hnew]; rfl

/-! ## The statements -/

/-- Settles O56: RG.SETT puts the ramp on course, and then each tick within the distance makes one unit. -/
theorem aRampTakesExactlyItsDistanceInTicks : Obligations.ARampTakesExactlyItsDistanceInTicks := by
  intro s v hinv hcfg
  obtain ⟨s₁, hs₁, hset⟩ := exists_rampSet hcfg v
  have hcourse := hset.onCourse hinv hcfg
  refine ⟨s₁, hs₁, fun k hk => ?_⟩
  obtain ⟨u, hu, hcur, hsent⟩ := hcourse.execAll_ticks_within hk
  obtain ⟨hcourse', hsame⟩ := hcourse.execAll_ticks hu
  refine ⟨u, hu, hcur, ?runs, hsent⟩
  case runs => rw [hcourse'.runs_iff, hcur, hsame.rgTarget, along_ne_iff hk]

/-- RG.SETT of the target in force, reached and inside the bounds, only stops the timer once more (43_ramp.md R189). -/
theorem OnCourse.exec_rgSett_again {s : State} {v : Velocity} (h : OnCourse s) (hrun : s.tmrRun = false)
    (hreached : s.rgCurrent = s.rgTarget) (hv : s.boundVelocity v = s.rgTarget) :
    exec (.rgSett v) s = .next { s with outputs := s.outputs ++ [.timerStop, .response .host .ok 0#64] } := by
  have hcur : s.boundVelocity s.rgCurrent = s.rgCurrent := boundVelocity_of_inBounds h.current_inBounds
  rw [exec_rgSett_of_met h.configured (by rw [hv, hcur, hreached]), hv, hcur, ← hrun]

/-- Settles O57: the ramp is still on course, and a ramp on course that stands has reached its target. -/
theorem settIsIdempotentAfterCompletion : Obligations.SettIsIdempotentAfterCompletion := by
  intro s u v n hinv hcfg h hrun
  obtain ⟨s₁, hs₁, hticks⟩ := andThen_eq_next h
  have hset := rampSet_of_exec hcfg hs₁
  obtain ⟨hcourse, hsame⟩ := (hset.onCourse hinv hcfg).execAll_ticks hticks
  have hreached : u.rgCurrent = u.rgTarget := by
    by_contra hne
    have hruns := hcourse.runs_iff.mpr (fun heq => hne (BitVec.eq_of_toInt_eq heq))
    rw [hrun] at hruns
    cases hruns
  have hv : u.boundVelocity v = u.rgTarget := by
    rw [(hset.config.trans hsame.config).boundVelocity, hsame.rgTarget, hset.rgTarget]
  refine ⟨hreached, fun m => ?_⟩
  rw [execAll_cons, hcourse.exec_rgSett_again hrun hreached hv, andThen_next,
    execAll_ticks_of_stopped (by exact hrun)]

end Sys2Proof.Laws
end

section
/-!
PROOFS. Every operation and every step completes (60_exceptions.md R222). An operation always answers, an event word is
performed or refused, and a clock edge is a sequence of what its pins offer; none of these is where a run could end.
-/

namespace Sys2Proof.Laws

open Sys2Proof.Machine

/-- The machine goes on: it neither faults nor stops for want of a meaning. -/
def Completes (r : Result) : Prop := ∃ t, r = .next t

theorem completes_next (s : State) : Completes (.next s) := ⟨s, rfl⟩

theorem Completes.andThen {r : Result} {k : State → Result} (hr : Completes r) (hk : ∀ s, Completes (k s)) :
    Completes (andThen r k) := by
  obtain ⟨s, rfl⟩ := hr
  exact hk s

theorem exec_completes (i : Instr) (s : State) : Completes (exec i s) := by
  obtain ⟨st, d, hexec⟩ := exec_eq_respond i s
  exact ⟨_, hexec⟩

theorem performOp_completes (p : Port) (w : EventWord) (s : State) : Completes (performOp p w s) := by
  rcases performOp_cases p w s with ⟨i, -, hperf⟩ | ⟨why, -, hperf⟩
  · exact hperf ▸ exec_completes i s
  · exact ⟨_, hperf⟩

/-- What a group of pins may offer completes if the offered operation does. -/
theorem completes_ite {offered : Bool} {r : Result} (hr : Completes r) (s : State) :
    Completes (if offered then r else .next s) := by
  cases offered with
  | true => exact hr
  | false => exact completes_next s

theorem performEdge_completes (pins : InPins) (s : State) : Completes (performEdge pins s) := by
  cases hrst : pins.rst with
  | true => exact ⟨s.resetRegisters, by simp [performEdge, hrst]⟩
  | false =>
    rw [performEdge_of_not_rst hrst]
    have htimer : Completes (performTickPin pins s) := completes_ite (exec_completes .tick s) s
    have hhost (u : State) : Completes (performHostPins pins u) := completes_ite (performOp_completes .host pins.hWord u) u
    have hrx (u : State) : Completes (performRxPins pins u) := completes_ite (exec_completes (.rxByte pins.rxData) u) u
    exact (htimer.andThen hhost).andThen hrx

theorem perform_completes (a : Arrival) (s : State) : Completes (perform a s) := by
  cases a with
  | op p w => exact performOp_completes p w s
  | edge pins => exact performEdge_completes pins s

theorem step_completes (s : State) : Completes (step s) := by
  rcases step_cases s with ⟨-, h⟩ | ⟨a, rest, -, h⟩
  · exact ⟨_, h⟩
  · exact h ▸ perform_completes a _

/-- Settles O15. -/
theorem everyOperationAndEveryStepCompletes : Obligations.EveryOperationAndEveryStepCompletes :=
  ⟨exec_completes, step_completes⟩

end Sys2Proof.Laws
end

section
/-!
PROOFS. Responses and statuses (60_exceptions.md R220 to R224). The status that answers an event word is a function of the
word, its port and the state before (`answerTo`); the response is the last thing sent and the only one; and a status
other than OK stands for work that was not done.
-/

namespace Sys2Proof.Laws

open Sys2Proof.Machine

/-! ## The status an operation answers -/

/-- The status an operation answers in a state; `exec_answers` ties it to `exec`. -/
def answerOf : Instr → State → Status
  | .stPop, s => if s.stQ = [] then .empty else .ok
  | .rgCfg accel decel min max _, _ => if configRejected accel decel min max then .errCfg else .ok
  | .rgSett _, s => if s.rgConfigured then .ok else .errNocfg
  | .tick, s => if s.tmrRun then .ok else .ignored
  | .crcInit, _ | .crcByte _, _ | .crcRead, _ | .rxByte _, _ | .stLen, _ | .stOvf, _ | .rgCur, _ | .rgTgt, _ => .ok

/-- An operation does its work and answers; unless it answers OK, it has left the state as it was and answers with
data 0 (60_exceptions.md R224). -/
theorem exec_answers (i : Instr) (s : State) :
    ∃ d, exec i s = .next ((workOf i s).respond i.port (answerOf i s) d) ∧
      (answerOf i s ≠ .ok → workOf i s = s ∧ d = 0#64) := by
  cases i with
  | stPop =>
    cases hq : s.stQ with
    | nil => exact ⟨0#64, by simp [exec_stPop_of_empty hq, workOf, answerOf, hq, Instr.port], by simp [workOf, hq]⟩
    | cons head rest =>
      exact ⟨head, by simp [exec_stPop_of_cons hq, workOf, answerOf, hq, Instr.port], by simp [answerOf, hq]⟩
  | rgCfg accel decel min max be =>
    refine ⟨0#64, ?_, ?_⟩
    · simp only [exec, execRgCfg, workOf, answerOf]
      split <;> rfl
    · simp only [workOf, answerOf]
      split <;> simp
  | rgSett v =>
    cases hcfg : s.rgConfigured with
    | true => exact ⟨0#64, by simp [exec, execRgSett, workOf, answerOf, hcfg, Instr.port], by simp [answerOf, hcfg]⟩
    | false => exact ⟨0#64, by simp [exec, execRgSett, workOf, answerOf, hcfg, Instr.port], by simp [workOf, hcfg]⟩
  | tick =>
    cases hrun : s.tmrRun with
    | true => exact ⟨0#64, by simp [exec, execTick, workOf, answerOf, hrun, Instr.port], by simp [answerOf, hrun]⟩
    | false => exact ⟨0#64, by simp [exec, execTick, workOf, answerOf, hrun, Instr.port], by simp [workOf, hrun]⟩
  | crcInit | crcByte | crcRead | rxByte | stLen | stOvf | rgCur | rgTgt => exact ⟨_, rfl, fun h => absurd rfl h⟩

section Conditions

/-! Each status has one operation that answers it, and one condition on its operands or on the state. -/

variable {i : Instr} {s : State}

theorem answerOf_ne_errIllegal : answerOf i s ≠ .errIllegal := by
  cases i with
  | stPop | rgCfg | rgSett | tick => simp only [answerOf]; split <;> nofun
  | crcInit | crcByte | crcRead | rxByte | stLen | stOvf | rgCur | rgTgt => nofun

theorem answerOf_eq_empty_iff : answerOf i s = .empty ↔ i = .stPop ∧ s.stQ.length = 0 := by
  cases i with
  | stPop => simp [answerOf]
  | rgCfg | rgSett | tick => simp only [answerOf]; split <;> simp
  | crcInit | crcByte | crcRead | rxByte | stLen | stOvf | rgCur | rgTgt => simp [answerOf]

theorem answerOf_eq_ignored_iff : answerOf i s = .ignored ↔ i = .tick ∧ s.tmrRun = false := by
  cases i with
  | tick => simp [answerOf]
  | stPop | rgCfg | rgSett => simp only [answerOf]; split <;> simp
  | crcInit | crcByte | crcRead | rxByte | stLen | stOvf | rgCur | rgTgt => simp [answerOf]

theorem answerOf_eq_errCfg_iff : answerOf i s = .errCfg ↔ ∃ accel decel min max be,
    i = .rgCfg accel decel min max be ∧ (accel = 0#16 ∨ decel = 0#16 ∨ min.toInt > max.toInt) := by
  cases i with
  | rgCfg accel decel min max be => simp [answerOf, ← configRejected_iff]
  | stPop | rgSett | tick => simp only [answerOf]; split <;> simp
  | crcInit | crcByte | crcRead | rxByte | stLen | stOvf | rgCur | rgTgt => simp [answerOf]

theorem answerOf_eq_errNocfg_iff :
    answerOf i s = .errNocfg ↔ ∃ v, i = .rgSett v ∧ s.rgConfigured = false := by
  cases i with
  | rgSett v => simp [answerOf]
  | stPop | rgCfg | tick => simp only [answerOf]; split <;> simp
  | crcInit | crcByte | crcRead | rxByte | stLen | stOvf | rgCur | rgTgt => simp [answerOf]

end Conditions

/-! ## The status an event word is answered with -/

/-- The status that answers a word offered at a port; the decoding error comes before any other (60_exceptions.md R223).
`performOp_answers` ties it to `performOp`. -/
def answerTo (p : Port) (w : EventWord) (s : State) : Status :=
  match decodeAt p w with
  | .operation i => answerOf i s
  | .illegal _ => .errIllegal

section

variable {p : Port} {w : EventWord} {s : State}

theorem answerTo_of_operation {i : Instr} (h : decodeAt p w = .operation i) : answerTo p w s = answerOf i s := by
  rw [answerTo, h]

theorem answerTo_of_illegal {why : Illegal} (h : decodeAt p w = .illegal why) : answerTo p w s = .errIllegal := by
  rw [answerTo, h]

theorem answerTo_eq_errIllegal_iff : answerTo p w s = .errIllegal ↔ ∀ i, decodeAt p w ≠ .operation i := by
  cases h : decodeAt p w with
  | operation i => simp [answerTo_of_operation h, answerOf_ne_errIllegal]
  | illegal why => simp [answerTo_of_illegal h]

/-- Every other status is the answer of the operation the word decodes to. -/
theorem answerTo_eq_iff {st : Status} (hst : st ≠ .errIllegal) :
    answerTo p w s = st ↔ ∃ i, decodeAt p w = .operation i ∧ answerOf i s = st := by
  cases h : decodeAt p w with
  | operation i => simp [answerTo_of_operation h]
  | illegal why => simp [answerTo_of_illegal h, hst.symm]

/-! ## The response -/

theorem statusOf_of_isTimerEvent {e : OutEvent} (h : isTimerEvent e = true) : statusOf e = none := by
  cases e with
  | setPeriod | timerStart | timerStop => rfl
  | response | ack | vel => cases h

/-- The work of an operation sends no response. -/
theorem workOf_outputs (i : Instr) (s : State) :
    ∃ evs : List OutEvent, (workOf i s).outputs = s.outputs ++ evs ∧ evs.filterMap statusOf = [] := by
  obtain ⟨timer, htimer, hout⟩ := exists_workEmits i s
  have hstatus : timer.filterMap statusOf = [] :=
    List.filterMap_eq_nil_iff.mpr fun e he => statusOf_of_isTimerEvent (htimer e he)
  refine ⟨timer ++ (acksOf i s).map .ack ++ (velsOf i s).map .vel, by rw [hout]; simp only [List.append_assoc], ?_⟩
  simp [hstatus, statusOf, Function.comp_def]

/-- A word is answered once, last, at its port and with `answerTo`; unless that is OK, nothing else has happened. -/
theorem performOp_answers {t : State} (h : performOp p w s = .next t) :
    ∃ (evs : List OutEvent) (d : BitVec 64), t.outputs = s.outputs ++ evs ++ [.response p (answerTo p w s) d] ∧
      evs.filterMap statusOf = [] ∧ (answerTo p w s ≠ .ok → evs = [] ∧ d = 0#64 ∧
        t = { s with outputs := s.outputs ++ [.response p (answerTo p w s) 0#64] }) := by
  cases hdec : decodeAt p w with
  | illegal why =>
    rw [answerTo_of_illegal hdec]
    obtain rfl := Host.Outcome.next.inj ((performOp_of_illegal hdec s).symm.trans h)
    exact ⟨[], 0#64, by simp, rfl, fun _ => ⟨rfl, rfl, rfl⟩⟩
  | operation i =>
    obtain rfl := port_of_decodeAt hdec
    rw [answerTo_of_operation hdec]
    obtain ⟨d, hexec, hprecise⟩ := exec_answers i s
    obtain rfl := Host.Outcome.next.inj (hexec.symm.trans ((performOp_of_decodeAt hdec s).symm.trans h))
    obtain ⟨evs, hout, hevs⟩ := workOf_outputs i s
    refine ⟨evs, d, by simp [hout], hevs, fun hne => ?_⟩
    obtain ⟨hwork, rfl⟩ := hprecise hne
    rw [hwork] at hout ⊢
    exact ⟨List.self_eq_append_right.mp hout, rfl, rfl⟩

end

/-! ## The statements -/

/-- Settles O19. -/
theorem everyWordIsAnsweredOnceAndRefusalsArePrecise : Obligations.EveryWordIsAnsweredOnceAndRefusalsArePrecise := by
  intro p w s t h
  obtain ⟨evs, d, hout, hevs, hprecise⟩ := performOp_answers h
  exact ⟨evs, answerTo p w s, d, hout, hevs, hprecise⟩

/-- Settles O20: the last response of the operation is its only one, so its status is `answerTo`. -/
theorem statusConditions : Obligations.StatusConditions := by
  refine ⟨⟨rfl, rfl, rfl, rfl, rfl, rfl⟩, fun p w s t st d h hlast => ?_⟩
  obtain ⟨evs, d', hout, -, hprecise⟩ := performOp_answers h
  obtain ⟨rfl, rfl⟩ : answerTo p w s = st ∧ d' = d := by simpa [hout] using hlast
  refine ⟨fun hne => ?precise, answerTo_eq_errIllegal_iff, ?empty, ?ignored, ?errCfg, ?errNocfg⟩
  case precise =>
    obtain ⟨-, hd, ht⟩ := hprecise hne
    exact ⟨hd, ht⟩
  case empty => simp [answerTo_eq_iff, answerOf_eq_empty_iff]
  case ignored => simp [answerTo_eq_iff, answerOf_eq_ignored_iff]
  case errCfg =>
    rw [answerTo_eq_iff (by decide)]
    simp only [answerOf_eq_errCfg_iff]
    constructor
    · rintro ⟨i, hdec, accel, decel, min, max, be, rfl, hrejected⟩
      exact ⟨accel, decel, min, max, be, hdec, hrejected⟩
    · rintro ⟨accel, decel, min, max, be, hdec, hrejected⟩
      exact ⟨_, hdec, accel, decel, min, max, be, rfl, hrejected⟩
  case errNocfg => simp [answerTo_eq_iff, answerOf_eq_errNocfg_iff]

end Sys2Proof.Laws
end

section
/-!
PROOFS. Access control by port of origin (60_exceptions.md R229). The rx port has RX.BYTE alone and the timer port TICK
alone; no operation of the host port is the decoder's, and the only one that writes the store is ST.POP. A word that is
none of these is refused and writes nothing.
-/

namespace Sys2Proof.Laws

open Sys2Proof.Machine

/-! ## The operations of a port -/

theorem eq_rxByte_of_port {i : Instr} (h : i.port = .rx) : ∃ b, i = .rxByte b := by
  cases i with
  | rxByte b => exact ⟨b, rfl⟩
  | crcInit | crcByte | crcRead | stPop | stLen | stOvf | rgCfg | rgSett | rgCur | rgTgt | tick => cases h

theorem eq_tick_of_port {i : Instr} (h : i.port = .timer) : i = .tick := by
  cases i with
  | tick => rfl
  | crcInit | crcByte | crcRead | rxByte | stPop | stLen | stOvf | rgCfg | rgSett | rgCur | rgTgt => cases h

/-- A word is performed as an operation of the port it arrived on, or refused. -/
theorem performOp_at_port {p : Port} {w : EventWord} {s t : State} (h : performOp p w s = .next t) :
    (∃ i : Instr, i.port = p ∧ exec i s = .next t) ∨
    t = { s with outputs := s.outputs ++ [.response p .errIllegal 0#64] } := by
  rcases performOp_cases p w s with ⟨i, hdec, hperf⟩ | ⟨why, -, hperf⟩
  · exact .inl ⟨i, port_of_decodeAt hdec, hperf.symm.trans h⟩
  · exact .inr (Host.Outcome.next.inj (h.symm.trans hperf))

/-! ## What the operations of a port write -/

/-- The close step writes the decoder's state and counter, and appends to the store or counts a drop. -/
theorem closeFrame_writes (s : State) : ∃ new ovf outs, s.closeFrame = { s with
    fdState := .idle, fdCount := 0#3, stQ := s.stQ ++ new, stOvf := ovf, outputs := outs } := by
  rcases closeFrame_cases s with ⟨-, -, h⟩ | ⟨-, -, h⟩ | ⟨-, h⟩
  · exact ⟨[s.frameCommand], _, _, h⟩
  · exact ⟨[], _, _, by rw [h, List.append_nil]⟩
  · exact ⟨[], _, _, by rw [h, List.append_nil]⟩

/-- A received byte writes the decoder, and the store only through a close. -/
theorem receive_writes (s : State) (b : Byte) : ∃ st n buf new ovf outs, s.receive b = { s with
    fdState := st, fdCount := n, fdBuf := buf, stQ := s.stQ ++ new, stOvf := ovf, outputs := outs } := by
  rcases receive_cases s b with ⟨-, -, h⟩ | ⟨-, -, h⟩ | ⟨-, -, h⟩ | ⟨-, -, h⟩
  · exact ⟨_, _, _, [], _, _, by rw [h, List.append_nil]⟩
  · exact ⟨_, _, _, [], _, _, by rw [h, List.append_nil]⟩
  · exact ⟨_, _, _, [], _, _, by rw [h, List.append_nil]⟩
  · obtain ⟨new, ovf, outs, hclose⟩ := closeFrame_writes { s with fdBuf := s.fdBuf.write 7#3 b }
    exact ⟨_, _, _, new, ovf, outs, h.trans hclose⟩

/-- A tick writes the velocity and the running flag, an ignored one neither. -/
theorem exec_tick_writes {s t : State} (h : exec .tick s = .next t) :
    t = { s with rgCurrent := t.rgCurrent, tmrRun := t.tmrRun, outputs := t.outputs } := by
  cases hrun : s.tmrRun with
  | true =>
    obtain rfl := Host.Outcome.next.inj ((exec_tick_of_running hrun).symm.trans h)
    rfl
  | false =>
    obtain rfl := Host.Outcome.next.inj ((exec_tick_of_stopped hrun).symm.trans h)
    rfl

/-- The host takes from the front of the store and adds nothing; its overflow counter is the decoder's. -/
theorem exec_host_store {i : Instr} {s t : State} (hport : i.port = .host) (h : exec i s = .next t) :
    t.stOvf = s.stOvf ∧ ∃ gone, s.stQ = gone ++ t.stQ := by
  by_cases hpop : i = .stPop
  · subst hpop
    cases hq : s.stQ with
    | nil =>
      obtain rfl := Host.Outcome.next.inj ((exec_stPop_of_empty hq).symm.trans h)
      exact ⟨rfl, [], hq.symm⟩
    | cons head rest =>
      obtain rfl := Host.Outcome.next.inj ((exec_stPop_of_cons hq).symm.trans h)
      exact ⟨rfl, [head], rfl⟩
  · obtain ⟨hq, hovf⟩ := exec_keeps_store (blockOf_ne_decoder_of_host hport) hpop h
    exact ⟨hovf, [], hq.symm⟩

/-! ## The statement -/

/-- Settles O23. -/
theorem portsReachOnlyTheirRegisters : Obligations.PortsReachOnlyTheirRegisters := by
  intro w s t
  refine ⟨fun h => ?rx, fun h => ?timer, fun h => ?host⟩
  case rx =>
    rcases performOp_at_port h with ⟨i, hport, hexec⟩ | rfl
    · obtain ⟨b, rfl⟩ := eq_rxByte_of_port hport
      obtain ⟨st, n, buf, new, ovf, outs, hrecv⟩ := receive_writes s b
      rw [exec_rxByte, hrecv] at hexec
      obtain rfl := Host.Outcome.next.inj hexec
      exact ⟨rfl, new, rfl⟩
    · exact ⟨rfl, [], (List.append_nil _).symm⟩
  case timer =>
    rcases performOp_at_port h with ⟨i, hport, hexec⟩ | rfl
    · obtain rfl := eq_tick_of_port hport
      exact exec_tick_writes hexec
    · rfl
  case host =>
    obtain ⟨-, kept⟩ := performOp_host_drives h
    have hstore : t.stOvf = s.stOvf ∧ ∃ gone, s.stQ = gone ++ t.stQ := by
      rcases performOp_at_port h with ⟨i, hport, hexec⟩ | rfl
      · exact exec_host_store hport hexec
      · exact ⟨rfl, [], rfl⟩
    exact ⟨kept.fdState, kept.fdCount, kept.fdBuf, hstore⟩

end Sys2Proof.Laws
end

section
/-!
PROOFS. What every step keeps. A step is made of operations, refusals of illegal words, resets and the taking of an arrival
(`StepKeeps`); what each of these keeps, every step keeps. The parameters are kept by all of them (70_reset_and_hazards.md
R252).
-/

namespace Sys2Proof.Laws

open Sys2Proof.Machine

/-! ## From the parts of a step to the step -/

/-- The parts every step is made of keep `P`. -/
structure StepKeeps (P : State → Prop) : Prop where
  exec : ∀ (i : Instr) (s t : State), P s → exec i s = .next t → P t
  refuse : ∀ (p : Port) (s : State), P s → P (s.refuse p .errIllegal)
  reset : ∀ s : State, P s → P s.resetRegisters
  take : ∀ (rest : List Arrival) (s : State), P s → P (s.setInputs rest).clearOutputs

/-- At a clock edge with `rst = 1` the other pins are not looked at (10_state.md R42). -/
theorem performEdge_of_rst {pins : InPins} (h : pins.rst = true) (s : State) :
    performEdge pins s = .next s.resetRegisters := by
  rw [performEdge, if_pos h]

section

variable {P : State → Prop} {s t : State}

theorem StepKeeps.performOp {p : Port} {w : EventWord} (hP : StepKeeps P) (hs : P s) (h : performOp p w s = .next t) :
    P t := by
  rcases performOp_cases p w s with ⟨i, -, hperf⟩ | ⟨why, -, hperf⟩
  · exact hP.exec i s t hs (hperf.symm.trans h)
  · obtain rfl := Host.Outcome.next.inj (hperf.symm.trans h)
    exact hP.refuse p s hs

/-- A group of pins that may offer something keeps what its offer keeps. -/
theorem keeps_ite {offered : Bool} {r : Result} (hs : P s) (hr : r = .next t → P t)
    (h : (if offered then r else .next s) = .next t) : P t := by
  cases offered with
  | true => exact hr h
  | false => exact Host.Outcome.next.inj h ▸ hs

theorem StepKeeps.performEdge {pins : InPins} (hP : StepKeeps P) (hs : P s) (h : performEdge pins s = .next t) : P t := by
  cases hrst : pins.rst with
  | true =>
    obtain rfl := Host.Outcome.next.inj ((performEdge_of_rst hrst s).symm.trans h)
    exact hP.reset s hs
  | false =>
    rw [performEdge_of_not_rst hrst] at h
    obtain ⟨b, hb, hrx⟩ := andThen_eq_next h
    obtain ⟨a, htick, hhost⟩ := andThen_eq_next hb
    have ha : P a := keeps_ite hs (hP.exec .tick s a hs) htick
    have hb : P b := keeps_ite ha (hP.performOp ha) hhost
    exact keeps_ite hb (hP.exec (.rxByte pins.rxData) b t hb) hrx

theorem StepKeeps.perform {a : Arrival} (hP : StepKeeps P) (hs : P s) (h : perform a s = .next t) : P t := by
  cases a with
  | op p w => exact hP.performOp hs h
  | edge pins => exact hP.performEdge hs h

theorem StepKeeps.step (hP : StepKeeps P) (hs : P s) (h : step s = .next t) : P t := by
  rcases step_cases s with ⟨-, hidle⟩ | ⟨a, rest, -, hperf⟩
  · obtain rfl := Host.Outcome.next.inj (hidle.symm.trans h)
    exact hP.take s.inputs s hs
  · exact hP.perform (hP.take rest s hs) (hperf.symm.trans h)

end

/-! ## The parameters (70_reset_and_hazards.md R252) -/

theorem exec_params {i : Instr} {s t : State} (h : exec i s = .next t) : t.params = s.params := by
  obtain ⟨st, d, rfl⟩ := eq_respond_of_exec h
  exact workOf_params i s

theorem stepKeeps_params (p : Params) : StepKeeps (fun s => s.params = p) where
  exec _ _ _ hs h := (exec_params h).trans hs
  refuse _ _ hs := hs
  reset _ hs := hs
  take _ _ hs := hs

/-- Settles O14. -/
theorem parametersNeverChange : Obligations.ParametersNeverChange :=
  fun s _ h => (stepKeeps_params s.params).step rfl h

end Sys2Proof.Laws
end

section
/-!
PROOFS. Reset and what only reset forgets (70_reset_and_hazards.md R250, R251, R253). Reset puts every register at its value
and an idle core stays as it is. No operation takes back the configuration or a counted drop, takes from the store but by a
pop, or closes a frame short of its eighth byte; and until a configuration is accepted no operation moves the ramp.
-/

namespace Sys2Proof.Laws

open Sys2Proof.Machine

/-! ## What a received byte does to the store and to an open frame -/

theorem toNat_le_saturatingIncr (n : Half) : n.toNat ≤ (saturatingIncr n).toNat := by
  have hlt := n.isLt
  rw [toNat_saturatingIncr]
  omega

/-- From `s` to `t` at most one Command reached the store, at the tail, or was dropped and counted with the store full
(42_command_store.md R161). -/
structure StorePushed (s t : State) : Prop where
  stQ : t.stQ = s.stQ ∨ ∃ cmd, t.stQ = s.stQ ++ [cmd]
  stOvf_le : s.stOvf.toNat ≤ t.stOvf.toNat
  full : t.stOvf ≠ s.stOvf → s.params.storeDepth ≤ s.stQ.length

theorem StoreKept.pushed {s t : State} (h : StoreKept s t) : StorePushed s t :=
  ⟨.inl h.stQ, h.stOvf ▸ le_rfl, fun hne => absurd h.stOvf hne⟩

theorem closeFrame_pushes (s : State) : StorePushed s s.closeFrame := by
  rcases closeFrame_cases s with ⟨-, -, h⟩ | ⟨-, hfull, h⟩ | ⟨-, h⟩
  · rw [h]
    exact ⟨.inr ⟨s.frameCommand, rfl⟩, le_rfl, fun hne => absurd rfl hne⟩
  · rw [h]
    exact ⟨.inl rfl, toNat_le_saturatingIncr s.stOvf, fun _ => hfull⟩
  · rw [h]
    exact StoreKept.pushed ⟨rfl, rfl⟩

theorem receive_pushes (s : State) (b : Byte) : StorePushed s (s.receive b) := by
  rcases receive_cases s b with ⟨-, -, h⟩ | ⟨-, -, h⟩ | ⟨-, -, h⟩ | ⟨-, -, h⟩
  · rw [h]; exact StoreKept.pushed ⟨rfl, rfl⟩
  · rw [h]; exact StoreKept.pushed ⟨rfl, rfl⟩
  · rw [h]; exact StoreKept.pushed ⟨rfl, rfl⟩
  · rw [h]
    exact { closeFrame_pushes { s with fdBuf := s.fdBuf.write 7#3 b } with }

/-- A byte that leaves an open frame closed is its eighth (41_frame_decoder.md R130 case 4). -/
theorem fdCount_of_receive_closes {s : State} {b : Byte} (hopen : s.fdState = .inFrame)
    (hclosed : (s.receive b).fdState = .idle) : s.fdCount = 7#3 := by
  rcases receive_cases s b with ⟨hidle, -⟩ | ⟨hidle, -⟩ | ⟨-, -, h⟩ | ⟨-, h7, -⟩
  · cases hopen.symm.trans hidle
  · cases hopen.symm.trans hidle
  · rw [h] at hclosed
    cases hclosed
  · exact h7

/-! ## What each operation keeps of the store, the frame and the configuration -/

theorem exec_stPop_tail {s t : State} (h : exec .stPop s = .next t) : t.stQ = s.stQ.tail ∧ t.stOvf = s.stOvf := by
  cases hq : s.stQ with
  | nil =>
    obtain rfl := Host.Outcome.next.inj ((exec_stPop_of_empty hq).symm.trans h)
    exact ⟨hq, rfl⟩
  | cons head rest =>
    obtain rfl := Host.Outcome.next.inj ((exec_stPop_of_cons hq).symm.trans h)
    exact ⟨rfl, rfl⟩

theorem eq_rxByte_of_block {i : Instr} (h : blockOf i = .decoder) : ∃ b, i = .rxByte b := by
  cases i with
  | rxByte b => exact ⟨b, rfl⟩
  | crcInit | crcByte | crcRead | stPop | stLen | stOvf | rgCfg | rgSett | rgCur | rgTgt | tick => cases h

theorem exec_store {i : Instr} {s t : State} (h : exec i s = .next t) :
    (t.stQ = s.stQ ∨ (i = .stPop ∧ t.stQ = s.stQ.tail) ∨ (∃ b cmd, i = .rxByte b ∧ t.stQ = s.stQ ++ [cmd])) ∧
    s.stOvf.toNat ≤ t.stOvf.toNat ∧ (t.stOvf ≠ s.stOvf → blockOf i = .decoder ∧ s.params.storeDepth ≤ s.stQ.length) := by
  by_cases hrx : blockOf i = .decoder
  · obtain ⟨b, rfl⟩ := eq_rxByte_of_block hrx
    obtain rfl := Host.Outcome.next.inj ((exec_rxByte b s).symm.trans h)
    obtain ⟨hq, hle, hfull⟩ := receive_pushes s b
    exact ⟨hq.imp id fun ⟨cmd, hcmd⟩ => .inr ⟨b, cmd, rfl, hcmd⟩, hle, fun hne => ⟨rfl, hfull hne⟩⟩
  · by_cases hpop : i = .stPop
    · subst hpop
      obtain ⟨hq, hovf⟩ := exec_stPop_tail h
      exact ⟨.inr (.inl ⟨rfl, hq⟩), hovf ▸ le_rfl, fun hne => absurd hovf hne⟩
    · obtain ⟨hq, hovf⟩ := exec_keeps_store hrx hpop h
      exact ⟨.inl hq, hovf ▸ le_rfl, fun hne => absurd hovf hne⟩

/-- Only RX.BYTE closes an open frame, with its eighth byte. -/
theorem closes_of_exec {i : Instr} {s t : State} (h : exec i s = .next t) (hopen : s.fdState = .inFrame)
    (hclosed : t.fdState = .idle) : blockOf i = .decoder ∧ s.fdCount = 7#3 := by
  by_cases hrx : blockOf i = .decoder
  · obtain ⟨b, rfl⟩ := eq_rxByte_of_block hrx
    obtain rfl := Host.Outcome.next.inj ((exec_rxByte b s).symm.trans h)
    exact ⟨rfl, fdCount_of_receive_closes hopen hclosed⟩
  · have hkept : t.fdState = .inFrame := (exec_keeps_decoder hrx h).fdState.trans hopen
    cases hkept.symm.trans hclosed

/-- A ramp that is configured stays so: RG.CFG either writes `rg_configured` with 1 or is refused (10_state.md R37). -/
theorem exec_keeps_configured {i : Instr} {s t : State} (h : exec i s = .next t) (hcfg : s.rgConfigured = true) :
    t.rgConfigured = true := by
  by_cases hi : blockOf i = .ramp
  · cases i with
    | rgCfg accel decel mn mx be =>
      by_cases hrej : configRejected accel decel mn mx = true
      · obtain rfl := Host.Outcome.next.inj ((exec_rgCfg_of_rejected hrej).symm.trans h)
        exact hcfg
      · obtain rfl := Host.Outcome.next.inj ((exec_rgCfg_of_accepted hrej).symm.trans h)
        rfl
    | rgSett v => exact (rampSet_of_exec hcfg h).config.rgConfigured.trans hcfg
    | tick =>
      rw [exec_tick_writes h]
      exact hcfg
    | rgCur | rgTgt =>
      obtain rfl := Host.Outcome.next.inj h
      exact hcfg
    | crcInit | crcByte | crcRead | rxByte | stPop | stLen | stOvf => cases hi
  · exact (exec_keeps_ramp hi h).rgConfigured.trans hcfg

/-- Settles O47. -/
theorem onlyResetForgets : Obligations.OnlyResetForgets := by
  intro i s t h
  obtain ⟨hq, hle, hfull⟩ := exec_store h
  exact ⟨hq, hle, hfull, exec_keeps_configured h, closes_of_exec h⟩

/-! ## A ramp that is not configured (70_reset_and_hazards.md R253) -/

theorem RampKept.refl (s : State) : RampKept s s := by
  constructor <;> rfl

theorem RampKept.trans {s t u : State} (h : RampKept s t) (k : RampKept t u) : RampKept s u where
  rgCurrent := k.rgCurrent.trans h.rgCurrent
  rgTarget := k.rgTarget.trans h.rgTarget
  rgDir := k.rgDir.trans h.rgDir
  rgMin := k.rgMin.trans h.rgMin
  rgMax := k.rgMax.trans h.rgMax
  rgBoundsEn := k.rgBoundsEn.trans h.rgBoundsEn
  rgAccelCmp := k.rgAccelCmp.trans h.rgAccelCmp
  rgDecelCmp := k.rgDecelCmp.trans h.rgDecelCmp
  rgConfigured := k.rgConfigured.trans h.rgConfigured
  tmrRun := k.tmrRun.trans h.tmrRun
  tmrCompare := k.tmrCompare.trans h.tmrCompare

/-- The operation is no RG.CFG that would be accepted. -/
def NotConfiguring (i : Instr) : Prop :=
  ∀ accel decel mn mx be, i = .rgCfg accel decel mn mx be → accel = 0#16 ∨ decel = 0#16 ∨ mn.toInt > mx.toInt

/-- With the ramp not configured and the timer stopped, every operation of the ramp but an accepted RG.CFG does no work:
it is refused, ignored, or only reads. -/
theorem workOf_ramp_of_unconfigured {i : Instr} {s : State} (hi : blockOf i = .ramp) (hno : NotConfiguring i)
    (hcfg : s.rgConfigured = false) (hstop : s.tmrRun = false) : workOf i s = s := by
  cases i with
  | rgCfg accel decel mn mx be =>
    have hrej : configRejected accel decel mn mx = true := configRejected_iff.mpr (hno accel decel mn mx be rfl)
    rw [workOf, if_pos hrej]
  | rgSett v => rw [workOf, if_neg (Bool.eq_false_iff.mp hcfg)]
  | tick => rw [workOf, if_neg (Bool.eq_false_iff.mp hstop)]
  | rgCur | rgTgt => rfl
  | crcInit | crcByte | crcRead | rxByte | stPop | stLen | stOvf => cases hi

theorem exec_keeps_unconfigured_ramp {i : Instr} {s t : State} (hno : NotConfiguring i) (hcfg : s.rgConfigured = false)
    (hstop : s.tmrRun = false) (h : exec i s = .next t) : RampKept s t := by
  by_cases hi : blockOf i = .ramp
  · obtain ⟨st, d, rfl⟩ := eq_respond_of_exec h
    rw [workOf_ramp_of_unconfigured hi hno hcfg hstop]
    constructor <;> rfl
  · exact exec_keeps_ramp hi h

theorem execAll_keeps_unconfigured_ramp {ops : List Instr} {s t : State} (hno : ∀ i ∈ ops, NotConfiguring i)
    (hcfg : s.rgConfigured = false) (hstop : s.tmrRun = false) (h : execAll ops s = .next t) : RampKept s t := by
  refine execAll_keeps (P := RampKept s) (fun i hi a b ha hab => ?_) (.refl s) h
  exact ha.trans (exec_keeps_unconfigured_ramp (hno i hi) (ha.rgConfigured.trans hcfg) (ha.tmrRun.trans hstop) hab)

/-- Settles O59: by the ramp invariants the timer is stopped too, so all registers of the ramp are kept. -/
theorem nothingMovesBeforeConfiguration : Obligations.NothingMovesBeforeConfiguration := by
  intro s t ops hinv hcfg hno h
  obtain ⟨hstopped, -⟩ := hinv
  have hkept : RampKept s t := execAll_keeps_unconfigured_ramp hno hcfg (hstopped hcfg) h
  have htcfg : t.rgConfigured = false := hkept.rgConfigured.trans hcfg
  have htstop : t.tmrRun = false := hkept.tmrRun.trans (hstopped hcfg)
  exact ⟨htcfg, htstop, hkept.rgCurrent, hkept.rgTarget, fun _ => exec_rgSett_of_unconfigured htcfg,
    exec_tick_of_stopped htstop⟩

/-! ## Reset and the idle core (70_reset_and_hazards.md R250, R251) -/

/-- Settles O9. -/
theorem resetPutsEveryRegisterAtItsValue : Obligations.ResetPutsEveryRegisterAtItsValue := by
  refine ⟨fun s pins rest hin hrst => ?edge, rfl, Memory.read_nil, rfl, rfl, rfl⟩
  case edge =>
    rw [step_of_inputs_cons hin, perform, performEdge_of_rst hrst]
    rfl

theorem step_of_inputs_nil {s : State} (h : s.inputs = []) : step s = .next s.clearOutputs := by
  rcases step_cases s with ⟨-, hidle⟩ | ⟨a, rest, hin, -⟩
  · exact hidle
  · cases h.symm.trans hin

/-- An edge whose three groups of pins offer nothing performs nothing. -/
theorem performEdge_of_quiet {pins : InPins} (hrst : pins.rst = false) (htick : pins.tick = false)
    (hhost : pins.hValid = false) (hrx : pins.rxValid = false) (s : State) : performEdge pins s = .next s := by
  rw [aClockEdgePerformsTimerThenHostThenRx s pins hrst, htick, hhost, hrx]
  rfl

/-- Settles O10. -/
theorem anIdleCoreStaysIdle : Obligations.AnIdleCoreStaysIdle := by
  refine ⟨fun s => step_of_inputs_nil, fun s pins rest hin hrst htick hhost hrx => ?quiet⟩
  case quiet =>
    rw [step_of_inputs_cons hin, perform, performEdge_of_quiet hrst htick hhost hrx]
    rfl

/-- Settles O21: the reset values, read by each operation's own equation. -/
theorem answersInTheResetState : Obligations.AnswersInTheResetState := fun p _ =>
  have hstQ : (State.resetWith p).stQ = [] := rfl
  have hcfg : (State.resetWith p).rgConfigured = false := rfl
  have hstop : (State.resetWith p).tmrRun = false := rfl
  ⟨exec_rgCur _, exec_rgTgt _, exec_stPop_of_empty hstQ, exec_stLen _, exec_stOvf _, exec_crcRead _,
    exec_rgSett_of_unconfigured hcfg, exec_tick_of_stopped hstop⟩

end Sys2Proof.Laws
end

section
/-!
PROOFS. Good states. The reset state is good, and every part of a step keeps a good state good: no operation but RX.BYTE
touches the decoder, a close leaves the counter at 0, and a Command reaches the store only when there is room and its
checksum has matched. The ramp invariants are those of 10_state.md R40, kept by every operation.
-/

namespace Sys2Proof.Laws

open Sys2Proof.Machine

/-! ## Reset -/

theorem goodState_resetWith {p : Params} (hp : p.wf) : GoodState (State.resetWith p) :=
  have hdecoder : DecoderInv (State.resetWith p) := ⟨fun _ => rfl, Memory.nil_wf⟩
  have hstore : StoreInv (State.resetWith p) := ⟨Nat.zero_le p.storeDepth, nofun⟩
  have hramp : RampInv (State.resetWith p) := ⟨fun _ => rfl, nofun, nofun, nofun⟩
  ⟨hp, hdecoder, hstore, hramp⟩

/-- The parameters of `State.reset` are legal, whatever the two that R8 leaves open. -/
theorem config_params_wf : Config.params.wf := by
  refine ⟨?distinctAcks, ?depthPositive, ?depthSmall, ?granularityPositive⟩
  case distinctAcks => decide
  case depthPositive => decide
  case depthSmall => decide
  case granularityPositive => exact Nat.le_add_left 1 Config.granularityLessOne

/-- Settles O16. -/
theorem resetIsAGoodState : Obligations.ResetIsAGoodState :=
  ⟨goodState_resetWith config_params_wf, fun _ => goodState_resetWith⟩

/-! ## The decoder (10_state.md R25, R26) -/

theorem DecoderKept.decoderInv {s t : State} (h : DecoderKept s t) (hinv : DecoderInv s) : DecoderInv t := by
  unfold DecoderInv
  rwa [h.fdState, h.fdCount, h.fdBuf]

/-- The close step ends in Idle with the counter at 0, and does not write the buffer. -/
theorem closeFrame_decoderInv {s : State} (hbuf : s.fdBuf.wf) : DecoderInv s.closeFrame := by
  obtain ⟨new, ovf, outs, hclose⟩ := closeFrame_writes s
  rw [hclose]
  exact ⟨fun _ => rfl, hbuf⟩

theorem receive_keeps_decoderInv {s : State} (b : Byte) (hinv : DecoderInv s) : DecoderInv (s.receive b) := by
  obtain ⟨hidle, hbuf⟩ := hinv
  rcases receive_cases s b with ⟨-, -, h⟩ | ⟨-, -, h⟩ | ⟨-, -, h⟩ | ⟨-, -, h⟩ <;> rw [h]
  · exact ⟨fun _ => rfl, hbuf⟩
  · exact ⟨hidle, hbuf⟩
  · exact ⟨nofun, Memory.write_wf _ _ _ hbuf⟩
  · exact closeFrame_decoderInv (Memory.write_wf _ _ _ hbuf)

theorem exec_keeps_decoderInv {i : Instr} {s t : State} (hinv : DecoderInv s) (h : exec i s = .next t) :
    DecoderInv t := by
  by_cases hi : blockOf i = .decoder
  · obtain ⟨b, rfl⟩ := eq_rxByte_of_block hi
    obtain rfl := Host.Outcome.next.inj ((exec_rxByte b s).symm.trans h)
    exact receive_keeps_decoderInv b hinv
  · exact (exec_keeps_decoder hi h).decoderInv hinv

/-! ## The store (10_state.md R28; 42_command_store.md R160) -/

/-- A Command is pushed only after its checksum matched, and appended only where there is room. -/
theorem closeFrame_keeps_storeInv {s : State} (hinv : StoreInv s) : StoreInv s.closeFrame := by
  obtain ⟨hlen, hvalid⟩ := hinv
  rcases closeFrame_cases s with ⟨hmatch, hroom, h⟩ | ⟨-, -, h⟩ | ⟨-, h⟩ <;> rw [h]
  · refine ⟨by simpa using hroom, fun cmd hcmd => ?_⟩
    rcases List.mem_append.mp hcmd with hold | hnew
    · exact hvalid cmd hold
    · rw [List.mem_singleton.mp hnew]
      exact s.frameCommand_valid.mpr hmatch
  · exact ⟨hlen, hvalid⟩
  · exact ⟨hlen, hvalid⟩

theorem receive_keeps_storeInv {s : State} (b : Byte) (hinv : StoreInv s) : StoreInv (s.receive b) := by
  rcases receive_cases s b with ⟨-, -, h⟩ | ⟨-, -, h⟩ | ⟨-, -, h⟩ | ⟨-, -, h⟩ <;> rw [h]
  · exact hinv
  · exact hinv
  · exact hinv
  · exact closeFrame_keeps_storeInv hinv

theorem exec_keeps_storeInv {i : Instr} {s t : State} (hinv : StoreInv s) (h : exec i s = .next t) : StoreInv t := by
  by_cases hrx : blockOf i = .decoder
  · obtain ⟨b, rfl⟩ := eq_rxByte_of_block hrx
    obtain rfl := Host.Outcome.next.inj ((exec_rxByte b s).symm.trans h)
    exact receive_keeps_storeInv b hinv
  · obtain ⟨hlen, hvalid⟩ := hinv
    rw [StoreInv, exec_params h]
    by_cases hpop : i = .stPop
    · subst hpop
      obtain ⟨hq, -⟩ := exec_stPop_tail h
      rw [hq]
      exact ⟨by rw [List.length_tail]; omega, fun cmd hcmd => hvalid cmd (List.mem_of_mem_tail hcmd)⟩
    · rw [(exec_keeps_store hrx hpop h).stQ]
      exact ⟨hlen, hvalid⟩

/-! ## Every step -/

/-- Everything a step is made of keeps a good state good. -/
theorem stepKeeps_goodState : StepKeeps GoodState where
  exec i s t hs h := by
    obtain ⟨hwf, hdecoder, hstore, hramp⟩ := hs
    exact ⟨(exec_params h).symm ▸ hwf, exec_keeps_decoderInv hdecoder h, exec_keeps_storeInv hstore h,
      exec_keeps_rampInv hramp h⟩
  refuse _ _ hs := hs
  reset s hs := by
    obtain ⟨hwf, -⟩ := hs
    exact goodState_resetWith hwf
  take _ _ hs := hs

/-- Settles O17. -/
theorem everyStepKeepsGoodStatesGood : Obligations.EveryStepKeepsGoodStatesGood :=
  fun _ _ => stepKeeps_goodState.step

end Sys2Proof.Laws
end

section
/-!
PROOFS. Separate blocks (20_memory.md R71). An operation is a function of the parameters and of the registers of its block:
put into any other state that has the same ones, it makes the same of them, sends the same and leaves the rest alone
(`exec_local`). So operations of blocks with no register in common commute, and bytes of the frame buffer that the current
frame has not written, which the decoder never reads, are seen by no operation (10_state.md R27).
-/

namespace Sys2Proof.Laws

open Sys2Proof.Machine

/-! ## The registers of a block -/

/-- The state `u` with the registers that the operations of a block use as they are in `s` (10_state.md R49). The store is
used by the decoder, which pushes to it, as well as by its own operations. -/
def graft (b : Block) (s u : State) : State :=
  match b with
  | .crc => { u with crcAcc := s.crcAcc }
  | .decoder =>
    { u with fdState := s.fdState, fdCount := s.fdCount, fdBuf := s.fdBuf, stQ := s.stQ, stOvf := s.stOvf }
  | .store => { u with stQ := s.stQ, stOvf := s.stOvf }
  | .ramp =>
    { u with
      rgCurrent := s.rgCurrent, rgTarget := s.rgTarget, rgDir := s.rgDir, rgMin := s.rgMin, rgMax := s.rgMax,
      rgBoundsEn := s.rgBoundsEn, rgAccelCmp := s.rgAccelCmp, rgDecelCmp := s.rgDecelCmp,
      rgConfigured := s.rgConfigured, tmrRun := s.tmrRun, tmrCompare := s.tmrCompare }

@[simp] theorem graft_self (b : Block) (s : State) : graft b s s = s := by
  cases b <;> rfl

/-! ## What the decoder reads -/

section Close

variable {s : State}

theorem closeFrame_of_stored (hmatch : s.frameCalc = s.frameRecv) (hroom : s.stQ.length < s.params.storeDepth) :
    s.closeFrame = { s with
      fdState := .idle, fdCount := 0#3, stQ := s.stQ ++ [s.frameCommand],
      outputs := s.outputs ++ ackEvents s.params s.params.ackPass } := by
  rcases closeFrame_cases s with ⟨-, -, h⟩ | ⟨-, hfull, -⟩ | ⟨hne, -⟩
  · exact h
  · exact absurd hroom (Nat.not_lt.mpr hfull)
  · exact absurd hmatch hne

theorem closeFrame_of_dropped (hmatch : s.frameCalc = s.frameRecv) (hfull : s.params.storeDepth ≤ s.stQ.length) :
    s.closeFrame = { s with
      fdState := .idle, fdCount := 0#3, stOvf := saturatingIncr s.stOvf,
      outputs := s.outputs ++ ackEvents s.params s.params.ackPass } := by
  rcases closeFrame_cases s with ⟨-, hroom, -⟩ | ⟨-, -, h⟩ | ⟨hne, -⟩
  · exact absurd hroom (Nat.not_lt.mpr hfull)
  · exact h
  · exact absurd hmatch hne

theorem closeFrame_of_rejected (hne : s.frameCalc ≠ s.frameRecv) :
    s.closeFrame = { s with
      fdState := .idle, fdCount := 0#3, outputs := s.outputs ++ ackEvents s.params s.params.ackFail } := by
  rcases closeFrame_cases s with ⟨hmatch, -⟩ | ⟨hmatch, -⟩ | ⟨-, h⟩
  · exact absurd hmatch hne
  · exact absurd hmatch hne
  · exact h

end Close

/-- The two states are alike in all that the decoder reads: of the buffer, the bytes the open frame has written. -/
structure DecoderAlike (s u : State) : Prop where
  params : u.params = s.params
  fdState : u.fdState = s.fdState
  fdCount : u.fdCount = s.fdCount
  stQ : u.stQ = s.stQ
  stOvf : u.stOvf = s.stOvf
  live : s.fdState = .inFrame → ∀ a, a < s.fdCount.toNat → s.fdBuf.read a = u.fdBuf.read a

/-- The close step over buffers that hold the same eight bytes. -/
theorem closeFrame_congr {s u : State} (h : DecoderAlike s u) (hbuf : ∀ a, a < 8 → s.fdBuf.read a = u.fdBuf.read a) :
    ∃ evs, s.closeFrame.outputs = s.outputs ++ evs ∧
      u.closeFrame = { graft .decoder s.closeFrame u with fdBuf := u.fdBuf, outputs := u.outputs ++ evs } := by
  obtain ⟨hparams, -, -, hstQ, hstOvf, -⟩ := h
  have hbytes (a n : Nat) (hn : a + n ≤ 8) : u.fdBuf.bytes a n = s.fdBuf.bytes a n :=
    Memory.bytes_congr fun i hi => (hbuf (a + i) (by omega)).symm
  have hcalc : u.frameCalc = s.frameCalc := by
    rw [State.frameCalc, State.frameCalc, hparams, hbytes 0 Config.dataLen (by decide)]
  have hrecv : u.frameRecv = s.frameRecv := by
    rw [State.frameRecv, State.frameRecv, Memory.readLE, Memory.readLE, hbytes Config.dataLen 2 (by decide)]
  have hcmd : u.frameCommand = s.frameCommand := by
    rw [State.frameCommand, State.frameCommand, Memory.readLE, Memory.readLE, hbytes 0 Config.payloadLen (by decide)]
  rcases closeFrame_cases s with ⟨hmatch, hroom, hs⟩ | ⟨hmatch, hfull, hs⟩ | ⟨hne, hs⟩
  · refine ⟨ackEvents s.params s.params.ackPass, by rw [hs], ?_⟩
    rw [closeFrame_of_stored (by rw [hcalc, hrecv, hmatch]) (by rw [hstQ, hparams]; exact hroom), hs, ← hcmd, ← hstQ,
      ← hstOvf, ← hparams]
    rfl
  · refine ⟨ackEvents s.params s.params.ackPass, by rw [hs], ?_⟩
    rw [closeFrame_of_dropped (by rw [hcalc, hrecv, hmatch]) (by rw [hstQ, hparams]; exact hfull), hs, ← hstQ, ← hstOvf,
      ← hparams]
    rfl
  · refine ⟨ackEvents s.params s.params.ackFail, by rw [hs], ?_⟩
    rw [closeFrame_of_rejected (by rwa [hcalc, hrecv]), hs, ← hstQ, ← hstOvf, ← hparams]
    rfl

theorem closeFrame_fdState (s : State) : s.closeFrame.fdState = .idle := by
  obtain ⟨new, ovf, outs, h⟩ := closeFrame_writes s
  rw [h]

theorem receive_fdBuf_of_idle {s : State} (b : Byte) (hst : s.fdState = .idle) : (s.receive b).fdBuf = s.fdBuf := by
  rcases receive_cases s b with ⟨-, -, h⟩ | ⟨-, -, h⟩ | ⟨hopen, -⟩ | ⟨hopen, -⟩
  · rw [h]
  · rw [h]
  · cases hst.symm.trans hopen
  · cases hst.symm.trans hopen

/-- A received byte does the same in two states the decoder cannot tell apart, and it cannot tell them apart afterwards. -/
theorem receive_congr {s u : State} (h : DecoderAlike s u) (b : Byte) :
    ∃ evs, (s.receive b).outputs = s.outputs ++ evs ∧
      u.receive b = { graft .decoder (s.receive b) u with fdBuf := (u.receive b).fdBuf, outputs := u.outputs ++ evs } ∧
      DecoderAlike (s.receive b) (u.receive b) := by
  obtain ⟨hparams, hfdState, hfdCount, hstQ, hstOvf, hlive⟩ := h
  rcases receive_cases s b with ⟨hst, hb, hs⟩ | ⟨hst, hb, hs⟩ | ⟨hst, hlt, hs⟩ | ⟨hst, h7, hs⟩
  · have hu := receive_of_start (hfdState.trans hst) (hb.trans (congrArg Params.startByte hparams.symm))
    rw [hs, hu]
    refine ⟨[], (List.append_nil _).symm, ?_, hparams, rfl, rfl, hstQ, hstOvf, fun _ a ha => ?_⟩
    · rw [List.append_nil, ← hstQ, ← hstOvf]
      rfl
    · exact absurd ha (Nat.not_lt_zero a)
  · have hu := receive_of_garbage (hfdState.trans hst) (hparams ▸ hb)
    rw [hs, hu]
    refine ⟨[], (List.append_nil _).symm, ?_, hparams, hfdState, hfdCount, hstQ, hstOvf, hlive⟩
    rw [List.append_nil, graft, ← hfdState, ← hfdCount, ← hstQ, ← hstOvf]
  · have hu := receive_of_payload (b := b) (hfdState.trans hst) (hfdCount ▸ hlt)
    rw [hs, hu]
    refine ⟨[], (List.append_nil _).symm, ?_, hparams, hfdState.trans hst, ?_, hstQ, hstOvf, fun _ a ha => ?_⟩
    · rw [List.append_nil, graft, ← hst, ← hfdState, ← hfdCount, ← hstQ, ← hstOvf]
    · exact congrArg (· + 1#3) hfdCount
    · have hcount : (s.fdCount + 1#3).toNat = s.fdCount.toNat + 1 := by bv_omega
      have hle : a < s.fdCount.toNat + 1 := hcount ▸ ha
      rw [Memory.read_write, Memory.read_write, hfdCount]
      split
      · rfl
      · exact hlive hst a (by omega)
  · have hu := receive_of_eighth (b := b) (hfdState.trans hst) (hfdCount.trans h7)
    have hbuf (a : Nat) (ha : a < 8) : (s.fdBuf.write 7#3 b).read a = (u.fdBuf.write 7#3 b).read a := by
      rw [Memory.read_write, Memory.read_write]
      split
      · rfl
      · next hne =>
        have hne7 : a ≠ 7 := hne
        exact hlive hst a (by rw [h7]; change a < 7; omega)
    have halike : DecoderAlike { s with fdBuf := s.fdBuf.write 7#3 b } { u with fdBuf := u.fdBuf.write 7#3 b } :=
      ⟨hparams, hfdState, hfdCount, hstQ, hstOvf, fun _ a ha => hbuf a (ha.trans s.fdCount.isLt)⟩
    obtain ⟨evs, hout, hclose⟩ := closeFrame_congr halike hbuf
    have hidle := closeFrame_fdState { s with fdBuf := s.fdBuf.write 7#3 b }
    have hkept := closeFrame_params { s with fdBuf := s.fdBuf.write 7#3 b }
    rw [hs, hu, hclose]
    exact ⟨evs, hout, rfl, hparams.trans hkept.symm, rfl, rfl, rfl, rfl,
      fun hopen => absurd (hidle.symm.trans hopen) nofun⟩

/-! ## An operation is a function of the registers of its block -/


/-- What an operation does on `s` is done on the registers of its block: it leads to `t` and sends `evs`, and from any other
state with the same registers in that block it does the same to them, sends the same, and leaves the rest as it is there. -/
structure ActsLocally (i : Instr) (s t : State) (evs : List OutEvent) : Prop where
  outputs : t.outputs = s.outputs ++ evs
  elsewhere : ∀ u, u.params = s.params →
    exec i (graft (blockOf i) s u) = .next { graft (blockOf i) t u with outputs := u.outputs ++ evs }

theorem receive_fdBuf_congr {s u : State} (b : Byte) (hfdState : u.fdState = s.fdState) (hfdCount : u.fdCount = s.fdCount)
    (hfdBuf : u.fdBuf = s.fdBuf) : (u.receive b).fdBuf = (s.receive b).fdBuf := by
  cases hst : s.fdState with
  | idle => rw [receive_fdBuf_of_idle b hst, receive_fdBuf_of_idle b (hfdState.trans hst), hfdBuf]
  | inFrame => rw [receive_fdBuf_of_inFrame b hst, receive_fdBuf_of_inFrame b (hfdState.trans hst), hfdBuf, hfdCount]

theorem receive_graft {s u : State} {b : Byte} {evs : List OutEvent} (hu : u.params = s.params)
    (hevs : (s.receive b).outputs = s.outputs ++ evs) :
    (graft .decoder s u).receive b = { graft .decoder (s.receive b) u with outputs := u.outputs ++ evs } := by
  have halike : DecoderAlike s (graft .decoder s u) := ⟨hu, rfl, rfl, rfl, rfl, fun _ _ _ => rfl⟩
  have hbuf : ((graft .decoder s u).receive b).fdBuf = (s.receive b).fdBuf := receive_fdBuf_congr b rfl rfl rfl
  obtain ⟨evs', hout, hrecv, -⟩ := receive_congr halike b
  obtain rfl : evs = evs' := List.append_cancel_left (hevs.symm.trans hout)
  rw [hrecv, hbuf]
  rfl

theorem exec_rxByte_local (b : Byte) (s : State) :
    ∃ evs, ActsLocally (.rxByte b) s ((s.receive b).emit (.response .rx .ok 0#64)) evs := by
  have hevs := receive_outputs s b
  refine ⟨_, by rw [State.emit_outputs, hevs, List.append_assoc], fun u hu => ?_⟩
  change exec (.rxByte b) (graft .decoder s u) = _
  rw [exec_rxByte, receive_graft hu hevs, ← List.append_assoc]
  rfl

theorem exec_rgSett_local {v : Velocity} {s t : State} (h : exec (.rgSett v) s = .next t) :
    ∃ evs, ActsLocally (.rgSett v) s t evs := by
  cases hcfg : s.rgConfigured with
  | false =>
    obtain rfl := Host.Outcome.next.inj ((exec_rgSett_of_unconfigured hcfg).symm.trans h)
    exact ⟨_, rfl, fun u _ => exec_rgSett_of_unconfigured (s := graft .ramp s u) hcfg⟩
  | true =>
    rcases lt_trichotomy (s.boundVelocity v).toInt (s.boundVelocity s.rgCurrent).toInt with hlt | heq | hgt
    · obtain rfl := Host.Outcome.next.inj ((exec_rgSett_of_below hcfg hlt).symm.trans h)
      exact ⟨_, rfl, fun u _ => exec_rgSett_of_below (s := graft .ramp s u) hcfg hlt⟩
    · obtain rfl := Host.Outcome.next.inj ((exec_rgSett_of_met hcfg heq).symm.trans h)
      exact ⟨_, rfl, fun u _ => exec_rgSett_of_met (s := graft .ramp s u) hcfg heq⟩
    · obtain rfl := Host.Outcome.next.inj ((exec_rgSett_of_above hcfg hgt).symm.trans h)
      exact ⟨_, rfl, fun u _ => exec_rgSett_of_above (s := graft .ramp s u) hcfg hgt⟩

theorem exec_local {i : Instr} {s t : State} (h : exec i s = .next t) : ∃ evs, ActsLocally i s t evs := by
  cases i with
  | crcInit | crcByte | crcRead =>
    obtain rfl := Host.Outcome.next.inj h
    exact ⟨_, rfl, fun u hu => by rw [← hu]; rfl⟩
  | stLen | stOvf | rgCur | rgTgt =>
    obtain rfl := Host.Outcome.next.inj h
    exact ⟨_, rfl, fun u _ => rfl⟩
  | rxByte b =>
    obtain rfl := Host.Outcome.next.inj ((exec_rxByte b s).symm.trans h)
    exact exec_rxByte_local b s
  | stPop =>
    cases hq : s.stQ with
    | nil =>
      obtain rfl := Host.Outcome.next.inj ((exec_stPop_of_empty hq).symm.trans h)
      exact ⟨_, rfl, fun u _ => exec_stPop_of_empty (s := graft .store s u) hq⟩
    | cons head rest =>
      obtain rfl := Host.Outcome.next.inj ((exec_stPop_of_cons hq).symm.trans h)
      exact ⟨_, rfl, fun u _ => exec_stPop_of_cons (s := graft .store s u) hq⟩
  | rgCfg accel decel mn mx be =>
    by_cases hrej : configRejected accel decel mn mx = true
    · obtain rfl := Host.Outcome.next.inj ((exec_rgCfg_of_rejected hrej).symm.trans h)
      exact ⟨_, rfl, fun u _ => exec_rgCfg_of_rejected hrej⟩
    · obtain rfl := Host.Outcome.next.inj ((exec_rgCfg_of_accepted hrej).symm.trans h)
      exact ⟨_, rfl, fun u hu => by rw [← hu]; exact exec_rgCfg_of_accepted hrej⟩
  | rgSett v => exact exec_rgSett_local h
  | tick =>
    cases hrun : s.tmrRun with
    | false =>
      obtain rfl := Host.Outcome.next.inj ((exec_tick_of_stopped hrun).symm.trans h)
      exact ⟨_, rfl, fun u _ => exec_tick_of_stopped (s := graft .ramp s u) hrun⟩
    | true =>
      obtain rfl := Host.Outcome.next.inj ((exec_tick_of_running hrun).symm.trans h)
      exact ⟨_, List.append_assoc _ _ _, fun u _ => by
        rw [← List.append_assoc]
        exact exec_tick_of_running (s := graft .ramp s u) hrun⟩

theorem ActsLocally.frame {i : Instr} {s t : State} {evs : List OutEvent} (h : ActsLocally i s t evs)
    (hexec : exec i s = .next t) : t = { graft (blockOf i) t s with outputs := t.outputs } := by
  have hself := h.elsewhere s rfl
  rw [graft_self, hexec, ← h.outputs] at hself
  exact Host.Outcome.next.inj hself

/-- The frame of an operation: what it writes are registers of its block. -/
theorem exec_frame {i : Instr} {s t : State} (h : exec i s = .next t) :
    t = { graft (blockOf i) t s with outputs := t.outputs } := by
  obtain ⟨evs, hlocal⟩ := exec_local h
  exact hlocal.frame h

theorem exec_rgCfg_writes {accel decel : Half} {mn mx : Velocity} {be : Bool} {s t : State}
    (h : exec (.rgCfg accel decel mn mx be) s = .next t) : t = { s with
      rgAccelCmp := t.rgAccelCmp, rgDecelCmp := t.rgDecelCmp, rgMin := t.rgMin, rgMax := t.rgMax,
      rgBoundsEn := t.rgBoundsEn, rgConfigured := t.rgConfigured, outputs := t.outputs } := by
  by_cases hrej : configRejected accel decel mn mx = true
  · obtain rfl := Host.Outcome.next.inj ((exec_rgCfg_of_rejected hrej).symm.trans h)
    rfl
  · obtain rfl := Host.Outcome.next.inj ((exec_rgCfg_of_accepted hrej).symm.trans h)
    rfl

theorem exec_rgSett_writes {v : Velocity} {s t : State} (h : exec (.rgSett v) s = .next t) : t = { s with
    rgTarget := t.rgTarget, rgCurrent := t.rgCurrent, rgDir := t.rgDir, tmrCompare := t.tmrCompare,
    tmrRun := t.tmrRun, outputs := t.outputs } := by
  by_cases hcfg : s.rgConfigured = true
  · obtain rfl := Host.Outcome.next.inj ((exec_rgSett_of_configured hcfg).symm.trans h)
    rcases setTargetVelocity_cases s v with ⟨-, hset⟩ | ⟨-, hset⟩ | ⟨-, hset⟩
    all_goals rw [hset]; rfl
  · obtain rfl := Host.Outcome.next.inj ((exec_rgSett_of_unconfigured (Bool.eq_false_iff.mpr hcfg)).symm.trans h)
    rfl

theorem receive_read_of_unwritten {s : State} {b : Byte} {a : Nat} (h : s.fdState = .idle ∨ a ≠ s.fdCount.toNat) :
    (s.receive b).fdBuf.read a = s.fdBuf.read a := by
  cases hst : s.fdState with
  | idle => rw [receive_fdBuf_of_idle b hst]
  | inFrame =>
    rw [receive_fdBuf_of_inFrame b hst, Memory.read_write, if_neg]
    exact h.resolve_left (by rw [hst]; nofun)

/-- Settles O22. -/
theorem operationsTouchOnlyTheirRegisters : Obligations.OperationsTouchOnlyTheirRegisters := by
  intro i s t h
  refine ⟨fun hblock => ?crc, fun hblock => ?store, fun hblock => ?decoder, ?cfg, ?sett, ?tick, fun hblock a => ?bytesKept,
    fun hblock a ha => ?byteStored⟩
  all_goals have hframe := exec_frame h
  case crc =>
    rw [hblock] at hframe
    exact hframe
  case store =>
    obtain ⟨-, -, hdropped⟩ := exec_store h
    have hovf : t.stOvf = s.stOvf := by
      by_contra hne
      obtain ⟨hdecoder, -⟩ := hdropped hne
      cases hblock.symm.trans hdecoder
    rw [hblock, graft, hovf] at hframe
    exact hframe
  case decoder =>
    rw [hblock] at hframe
    exact hframe
  case cfg => rintro accel decel mn mx be rfl; exact exec_rgCfg_writes h
  case sett => rintro v rfl; exact exec_rgSett_writes h
  case tick => rintro rfl; exact exec_tick_writes h
  case bytesKept => rw [(exec_keeps_decoder hblock h).fdBuf]
  case byteStored =>
    obtain ⟨b, rfl⟩ := eq_rxByte_of_block hblock
    obtain rfl := Host.Outcome.next.inj ((exec_rxByte b s).symm.trans h)
    exact receive_read_of_unwritten ha

/-! ## Blocks with no register in common (20_memory.md R71) -/

/-- The registers of the two blocks can be put in place in either order: no register belongs to both. -/
def SeparateBlocks (a b : Block) : Prop := ∀ x y u : State, graft a x (graft b y u) = graft b y (graft a x u)

theorem separateBlocks_crc {b : Block} (h : b ≠ .crc) : SeparateBlocks .crc b := by
  intro x y u
  cases b with
  | crc => exact absurd rfl h
  | decoder | store | ramp => rfl

theorem separateBlocks_decoder_ramp : SeparateBlocks .decoder .ramp := fun _ _ _ => rfl

theorem SeparateBlocks.symm {a b : Block} (h : SeparateBlocks a b) : SeparateBlocks b a :=
  fun x y u => (h y x u).symm

theorem graft_outputs (b : Block) (x u : State) (outs : List OutEvent) :
    graft b x { u with outputs := outs } = { graft b x u with outputs := outs } := by
  cases b <;> rfl

/-- After an operation of a separate block, an operation finds its registers as they were, and does the same. -/
theorem ActsLocally.after {i j : Instr} {s t u : State} {evs : List OutEvent} (h : ActsLocally j s u evs)
    (hsep : SeparateBlocks (blockOf i) (blockOf j)) (hexec : exec i s = .next t) :
    exec j t = .next { graft (blockOf j) u t with outputs := t.outputs ++ evs } := by
  have hfound : graft (blockOf j) s t = t := by
    rw [exec_frame hexec, graft_outputs, ← hsep, graft_self]
  rw [← h.elsewhere t (exec_params hexec), hfound]

/-- Operations of separate blocks leave the same registers in either order, and each sends the same in either order. -/
theorem exec_comm {i j : Instr} (hsep : SeparateBlocks (blockOf i) (blockOf j)) (s : State) :
    ∃ (t t' : State) (ei ej : List OutEvent),
      execAll [i, j] s = .next t ∧ execAll [j, i] s = .next t' ∧ { t with outputs := [] } = { t' with outputs := [] } ∧
      t.outputs = s.outputs ++ ei ++ ej ∧ t'.outputs = s.outputs ++ ej ++ ei := by
  obtain ⟨si, hi⟩ := exec_completes i s
  obtain ⟨sj, hj⟩ := exec_completes j s
  obtain ⟨ei, hlocali⟩ := exec_local hi
  obtain ⟨ej, hlocalj⟩ := exec_local hj
  refine ⟨{ graft (blockOf j) sj si with outputs := si.outputs ++ ej },
    { graft (blockOf i) si sj with outputs := sj.outputs ++ ei }, ei, ej, ?ij, ?ji, ?registers, ?outputs, ?outputs'⟩
  case ij => rw [execAll_cons, hi, andThen_next, execAll_cons, hlocalj.after hsep hi]; rfl
  case ji => rw [execAll_cons, hj, andThen_next, execAll_cons, hlocali.after hsep.symm hj]; rfl
  case registers =>
    have hri : graft (blockOf j) sj si = { graft (blockOf j) sj (graft (blockOf i) si s) with outputs := si.outputs } := by
      rw [← graft_outputs, ← exec_frame hi]
    have hrj : graft (blockOf i) si sj = { graft (blockOf i) si (graft (blockOf j) sj s) with outputs := sj.outputs } := by
      rw [← graft_outputs, ← exec_frame hj]
    rw [hri, hrj, hsep]
  case outputs => rw [hlocali.outputs]
  case outputs' => rw [hlocalj.outputs]

/-- Settles O24. -/
theorem operationsOfSeparateBlocksCommute : Obligations.OperationsOfSeparateBlocksCommute := by
  intro i j s hblocks
  refine exec_comm ?_ s
  rcases hblocks with ⟨hi, hj⟩ | ⟨hi, hj⟩
  · rw [hi]
    exact separateBlocks_crc hj
  · rw [hi, hj]
    exact separateBlocks_decoder_ramp

/-! ## Bytes left in the buffer (10_state.md R27) -/

theorem graft_withBuffer {b : Block} (hb : b ≠ .decoder) (x u : State) (m : Memory) :
    graft b x { u with fdBuf := m } = { graft b x u with fdBuf := m } := by
  cases b with
  | decoder => exact absurd rfl hb
  | crc | store | ramp => rfl

/-- No operation but RX.BYTE looks at the frame buffer. -/
theorem exec_withBuffer {i : Instr} {s t : State} (hi : blockOf i ≠ .decoder) (h : exec i s = .next t) (m : Memory) :
    exec i { s with fdBuf := m } = .next { t with fdBuf := m } := by
  obtain ⟨evs, hlocal⟩ := exec_local h
  have helse := hlocal.elsewhere { s with fdBuf := m } rfl
  rw [graft_withBuffer hi s s, graft_withBuffer hi t s, graft_self] at helse
  have hframe := hlocal.frame h
  rw [hlocal.outputs] at hframe
  have hresult : { graft (blockOf i) t s with fdBuf := m, outputs := s.outputs ++ evs } = { t with fdBuf := m } :=
    congrArg (fun u : State => { u with fdBuf := m }) hframe.symm
  rw [helse, ← hresult]

/-- States that differ only in bytes the open frame has not written differ only in the buffer. -/
theorem eq_withBuffer_of_sameButStale {s s' : State} (h : SameButStale s s') : s' = { s with fdBuf := s'.fdBuf } := by
  obtain ⟨hsame, -⟩ := h
  exact congrArg (fun u : State => { u with fdBuf := s'.fdBuf }) hsame.symm

theorem exec_sameButStale_of_ne_decoder {i : Instr} {s s' t : State} (hi : blockOf i ≠ .decoder) (h : SameButStale s s')
    (ht : exec i s = .next t) : ∃ t', exec i s' = .next t' ∧ SameButStale t t' := by
  have hkept := exec_keeps_decoder hi ht
  have hs' := eq_withBuffer_of_sameButStale h
  obtain ⟨-, hlive⟩ := h
  refine ⟨{ t with fdBuf := s'.fdBuf }, by rw [hs']; exact exec_withBuffer hi ht s'.fdBuf, rfl, ?_⟩
  rw [hkept.fdState, hkept.fdCount, hkept.fdBuf]
  exact hlive

theorem receive_sameButStale {s s' : State} (h : SameButStale s s') (b : Byte) :
    SameButStale (s.receive b) (s'.receive b) := by
  have hs' := eq_withBuffer_of_sameButStale h
  obtain ⟨-, hlive⟩ := h
  generalize s'.fdBuf = m at hs' hlive
  subst hs'
  have halike : DecoderAlike s { s with fdBuf := m } := ⟨rfl, rfl, rfl, rfl, rfl, hlive⟩
  obtain ⟨evs, hout, hrecv, halike'⟩ := receive_congr halike b
  have hself : s.receive b = { graft .decoder (s.receive b) s with outputs := s.outputs ++ evs } := by
    have := receive_graft (s := s) (u := s) rfl hout
    rwa [graft_self] at this
  refine ⟨?_, halike'.live⟩
  rw [hrecv, hself]
  rfl

/-- Settles O38: RX.BYTE reads only bytes the open frame has written, and no other operation reads the buffer. -/
theorem staleBufferBytesAreNeverObservable : Obligations.StaleBufferBytesAreNeverObservable := by
  intro i s s' h
  by_cases hi : blockOf i = .decoder
  · obtain ⟨b, rfl⟩ := eq_rxByte_of_block hi
    obtain ⟨hsame, hlive⟩ := receive_sameButStale h b
    exact ⟨_, _, exec_rxByte b s, exec_rxByte b s',
      congrArg (fun u : State => u.emit (.response .rx .ok 0#64)) hsame, hlive⟩
  · obtain ⟨t, ht⟩ := exec_completes i s
    obtain ⟨t', ht', hsame⟩ := exec_sameButStale_of_ne_decoder hi h ht
    exact ⟨t, t', ht, ht', hsame⟩

end Sys2Proof.Laws
end

section
/-!
PROOFS. Runs of the CRC block and the algebra of one shift. No operation of another block touches the accumulator, so a run
folds the bytes it gives and nothing else. A shift of zero is zero and a shift of a value with room above it loses nothing,
which gives the residues of 40_crc.md R119; and with an odd polynomial the bit shifted out stays visible in bit 0, so that a
shift can be undone.
-/

namespace Sys2Proof.Laws

open Sys2Proof.Machine

/-! ## The accumulator in a run (40_crc.md R117) -/

theorem graft_crcAcc {b : Block} (hb : b ≠ .crc) (x u : State) : (graft b x u).crcAcc = u.crcAcc := by
  cases b with
  | crc => exact absurd rfl hb
  | decoder | store | ramp => rfl

theorem exec_keeps_crcAcc {i : Instr} {s t : State} (hi : blockOf i ≠ .crc) (h : exec i s = .next t) :
    t.crcAcc = s.crcAcc :=
  (congrArg State.crcAcc (exec_frame h)).trans (graft_crcAcc hi t s)

theorem crcOperandOf_of_ne_crc {i : Instr} (hi : blockOf i ≠ .crc) : crcOperandOf i = none := by
  cases i with
  | crcInit | crcByte | crcRead => exact absurd rfl hi
  | rxByte | stPop | stLen | stOvf | rgCfg | rgSett | rgCur | rgTgt | tick => rfl

/-- The accumulator takes in the byte an operation gives to it, if it gives one. -/
theorem exec_folds {i : Instr} {s t : State} (hi : blockOf i = .crc → ∃ b, i = .crcByte b) (h : exec i s = .next t) :
    t.crcAcc = crcFold s.params.crc s.crcAcc ([i].filterMap crcOperandOf) := by
  by_cases hblock : blockOf i = .crc
  · obtain ⟨b, rfl⟩ := hi hblock
    obtain rfl := Host.Outcome.next.inj ((exec_crcByte b s).symm.trans h)
    rfl
  · rw [List.filterMap_cons_none (crcOperandOf_of_ne_crc hblock)]
    exact exec_keeps_crcAcc hblock h

/-- A run whose operations of the CRC block are CRC.BYTEs folds their bytes, in order. -/
theorem execAll_folds {ops : List Instr} (hops : ∀ i ∈ ops, blockOf i = .crc → ∃ b, i = .crcByte b) (s : State) :
    ∃ t, execAll ops s = .next t ∧ t.params = s.params ∧
      t.crcAcc = crcFold s.params.crc s.crcAcc (ops.filterMap crcOperandOf) := by
  induction ops generalizing s with
  | nil => exact ⟨s, rfl, rfl, rfl⟩
  | cons i rest ih =>
    obtain ⟨u, hu⟩ := exec_completes i s
    obtain ⟨t, ht, hparams, hacc⟩ := ih (fun j hj => hops j (List.mem_cons_of_mem i hj)) u
    refine ⟨t, by rw [execAll_cons, hu, andThen_next, ht], hparams.trans (exec_params hu), ?_⟩
    rw [hacc, exec_params hu, exec_folds (hops i List.mem_cons_self) hu, ← crcFold_append, ← List.filterMap_append,
      List.singleton_append]

/-- Settles O29: CRC.INIT loads the initial value, the run folds the bytes, and CRC.READ answers the final value. -/
theorem crcComputationsAreIndependent : Obligations.CrcComputationsAreIndependent := by
  intro s ops hops
  obtain ⟨t, ht, hparams, hacc⟩ := execAll_folds hops
    { s with crcAcc := s.params.crc.init, outputs := s.outputs ++ [.response .host .ok 0#64] }
  refine ⟨t, by rw [execAll_cons, exec_crcInit, andThen_next, ht], ?_⟩
  rw [exec_crcRead, hacc, hparams]
  rfl

/-! ## Zeros (40_crc.md R119 a) -/

theorem crcShifts_zero (poly : Half) (n : Nat) : crcShifts poly n 0#16 = 0#16 := by
  induction n with
  | zero => rfl
  | succ n ih => exact ih

theorem crcStep_zero (p : CrcParams) : crcStep p 0#16 0#8 = 0#16 := by
  rw [crcStep_eq_crcShifts]
  cases p.refIn <;> exact crcShifts_zero p.poly 8

theorem crcFold_zeros (p : CrcParams) (n : Nat) : crcFold p 0#16 (List.replicate n 0#8) = 0#16 := by
  induction n with
  | zero => rfl
  | succ n ih => rw [List.replicate_succ, crcFold, crcStep_zero, ih]

theorem crcFinal_zero {p : CrcParams} (hxor : p.xorOut = 0#16) : crcFinal p 0#16 = 0#16 := by
  rw [crcFinal, hxor]
  cases p.refOut <;> rfl

theorem crc16_zeros {p : CrcParams} (hinit : p.init = 0#16) (hxor : p.xorOut = 0#16) (n : Nat) :
    crc16 p (List.replicate n 0#8) = 0#16 := by
  rw [crc16, hinit, crcFold_zeros, crcFinal_zero hxor]

/-- Settles O30. -/
theorem zeroBytesWithZeroInitHaveChecksumZero : Obligations.ZeroBytesWithZeroInitHaveChecksumZero := by
  intro p n hinit hxor
  refine ⟨crc16_zeros hinit hxor n, ?valid⟩
  case valid =>
    have hdata : (payloadBytes 0#64).take Config.dataLen = List.replicate 6 0#8 := by decide
    rw [commandValid, hdata, crc16_zeros hinit hxor]
    rfl

/-! ## The residue (40_crc.md R119 b) -/

/-- As long as no 1 reaches bit 15, the polynomial is not xored on and the shifts are one long shift. -/
theorem crcShifts_of_room (poly : Half) {n : Nat} {x : Half} (h : x.toNat * 2 ^ n < 2 ^ 16) :
    crcShifts poly n x = x <<< n := by
  induction n generalizing x with
  | zero => rw [crcShifts, BitVec.shiftLeft_zero]
  | succ n ih =>
    have hpow : x.toNat * 2 ≤ x.toNat * 2 ^ (n + 1) := Nat.mul_le_mul_left _ (Nat.le_self_pow n.succ_ne_zero 2)
    have hmsb : x.msb = false := BitVec.msb_eq_false_iff_two_mul_lt.mpr (by omega)
    have hnext : (x <<< 1).toNat = x.toNat * 2 := by
      rw [toNat_half_shiftLeft_one]
      omega
    have hroom : (x <<< 1).toNat * 2 ^ n < 2 ^ 16 := by rwa [hnext, mul_assoc, ← pow_succ']
    rw [crcShifts, crcShift, hmsb, if_neg Bool.false_ne_true, ih hroom, ← BitVec.shiftLeft_add, Nat.add_comm]

/-- Xoring its high byte away leaves the low byte of a half. -/
theorem xor_highByte (c : Half) : c ^^^ ((c.extractLsb' 8 8).setWidth 16 <<< 8) = (c.extractLsb' 0 8).setWidth 16 := by
  apply BitVec.eq_of_getLsbD_eq
  intro i hi
  by_cases hlow : i < 8
  · simp [hlow, hi]
  · have hhigh : 8 + (i - 8) = i := by omega
    have hbyte : i - 8 < 8 := by omega
    simp [hlow, hi, hhigh, hbyte]

section Residue

variable {p : CrcParams} (hin : p.refIn = false)
include hin

theorem crcStep_of_not_refIn (c : Half) (b : Byte) : crcStep p c b = crcShifts p.poly 8 (c ^^^ (b.setWidth 16 <<< 8)) := by
  rw [crcStep_eq_crcShifts, hin, if_neg Bool.false_ne_true]

/-- The high byte of the accumulator cancels it, and its low byte moves up. -/
theorem crcStep_highByte (c : Half) : crcStep p c (c.extractLsb' 8 8) = (c.extractLsb' 0 8).setWidth 16 <<< 8 := by
  have hlt := (c.extractLsb' 0 8).isLt
  rw [crcStep_of_not_refIn hin, xor_highByte]
  apply crcShifts_of_room
  rw [BitVec.toNat_setWidth_of_le (by decide)]
  omega

/-- A byte alone in the high half of the accumulator is cancelled by itself. -/
theorem crcStep_cancels (b : Byte) : crcStep p (b.setWidth 16 <<< 8) b = 0#16 := by
  rw [crcStep_of_not_refIn hin, BitVec.xor_self, crcShifts_zero]

/-- The two bytes of the accumulator, high byte first, bring it to 0. -/
theorem crcFold_own_bytes (c : Half) : crcFold p c [c.extractLsb' 8 8, c.extractLsb' 0 8] = 0#16 := by
  rw [crcFold, crcFold, crcStep_highByte hin, crcStep_cancels hin, crcFold]

end Residue

theorem crcFinal_plain {p : CrcParams} (hout : p.refOut = false) (hxor : p.xorOut = 0#16) (c : Half) : crcFinal p c = c := by
  rw [crcFinal, hout, hxor, if_neg Bool.false_ne_true, BitVec.xor_zero]

/-- Settles O31: without a final step the checksum is the accumulator. -/
theorem checksumHighByteFirstFoldsToZero : Obligations.ChecksumHighByteFirstFoldsToZero := by
  intro p msg hin hout hxor
  rw [crc16, crcFinal_plain hout hxor, crcFold_append, crcFold_own_bytes hin]

/-! ## Undoing a shift (40_crc.md R119 c) -/

section OddPolynomial

variable {poly : Half} (hodd : poly.getLsbD 0 = true)
include hodd

/-- The bit shifted out comes back as bit 0. -/
theorem crcShift_bit_zero (x : Half) : (crcShift poly x).getLsbD 0 = x.msb := by
  rw [crcShift]
  cases x.msb <;> simp [hodd]

theorem crcShift_injective : Function.Injective (crcShift poly) := by
  intro x y h
  have hmsb : x.msb = y.msb := by rw [← crcShift_bit_zero hodd x, ← crcShift_bit_zero hodd y, h]
  have hshift : x <<< 1 = y <<< 1 := by
    rw [crcShift, crcShift, hmsb] at h
    cases hy : y.msb with
    | true => simpa [hy] using h
    | false => simpa [hy] using h
  apply BitVec.eq_of_getLsbD_eq
  intro i hi
  by_cases htop : i = 15
  · subst htop
    rw [BitVec.msb_eq_getLsbD_last, BitVec.msb_eq_getLsbD_last] at hmsb
    exact hmsb
  · have hlt : i + 1 < 16 := by omega
    have hup (z : Half) : (z <<< 1).getLsbD (i + 1) = z.getLsbD i := by
      rw [BitVec.getLsbD_shiftLeft, decide_eq_true hlt, decide_eq_false (by omega)]
      rfl
    rw [← hup, hshift, hup]

theorem crcShifts_injective (n : Nat) : Function.Injective (crcShifts poly n) := by
  induction n with
  | zero => exact Function.injective_id
  | succ n ih => exact ih.comp (crcShift_injective hodd)

end OddPolynomial

/-- What a byte puts on the accumulator tells the byte. -/
theorem reflected_highByte_injective (reflect : Bool) :
    Function.Injective (fun b : Byte => ((if reflect then b.reverse else b).setWidth 16 <<< 8 : Half)) := by
  intro a b h
  have hnum := congrArg BitVec.toNat h
  simp only [toNat_byte_shiftLeft_eight] at hnum
  have hbyte : (if reflect then a.reverse else a) = if reflect then b.reverse else b := BitVec.eq_of_toNat_eq (by omega)
  cases reflect with
  | true =>
    have hreverse := congrArg BitVec.reverse hbyte
    simpa using hreverse
  | false => exact hbyte

/-- Settles O32: the polynomial 0x1021 is odd, and a step is an xor, which can be undone, followed by eight shifts; an
injective map of a finite set into itself is a bijection. -/
theorem crcStepIsBijective : Obligations.CrcStepIsBijective := by
  intro p hpoly
  have hshifts : Function.Injective (crcShifts p.poly 8) := crcShifts_injective (by rw [hpoly]; rfl) 8
  refine ⟨fun b => Finite.injective_iff_bijective.mp fun c c' h => ?accumulator, fun c b b' h => ?byte⟩
  case accumulator => exact (BitVec.xor_left_inj _).mp (hshifts h)
  case byte => exact reflected_highByte_injective p.refIn ((BitVec.xor_right_inj c).mp (hshifts h))

end Sys2Proof.Laws
end

section
/-!
PROOFS. Frames fed byte by byte (41_frame_decoder.md R142). After the sentinel the payload bytes fill the buffer from
address 0, and the eighth closes the frame over exactly the bytes that were fed. What the frame then does depends on its two
checksum bytes: those of a Command built by 30_encoding.md R84 match, and the buffer is that Command.
-/

namespace Sys2Proof.Laws

open Sys2Proof.Machine

/-! ## Feeding bytes -/

/-- The answers to `n` received bytes. -/
def rxOks (n : Nat) : List OutEvent := List.replicate n (.response .rx .ok 0#64)

theorem rxOks_succ (n : Nat) : rxOks (n + 1) = rxOks n ++ rxOks 1 := List.replicate_succ'

@[simp] theorem acks_of_rxOks (n : Nat) : (rxOks n).filterMap ackByteOf = [] := by
  rw [List.filterMap_eq_nil_iff]
  intro e he
  rw [List.eq_of_mem_replicate he]
  rfl

theorem rxBytes_append (a b : List Byte) : rxBytes (a ++ b) = rxBytes a ++ rxBytes b := List.map_append

theorem execAll_rxBytes_cons (b : Byte) (rest : List Byte) (s : State) :
    execAll (rxBytes (b :: rest)) s = execAll (rxBytes rest) ((s.receive b).emit (.response .rx .ok 0#64)) := rfl

/-- Settles O41. -/
theorem garbageWithoutASentinelDoesNothing : Obligations.GarbageWithoutASentinelDoesNothing := by
  intro s bytes hst hno
  induction bytes generalizing s with
  | nil => simp [rxBytes]
  | cons b rest ih =>
    have hb : b ≠ s.params.startByte := (List.ne_of_not_mem_cons hno).symm
    have hrest : s.params.startByte ∉ rest := List.not_mem_of_not_mem_cons hno
    rw [execAll_rxBytes_cons, receive_of_garbage hst hb, ih (s.emit (.response .rx .ok 0#64)) hst hrest]
    simp [List.replicate_succ, State.emit]

/-- The frame opened and the bytes `l` received: they fill the buffer from address 0. -/
def loaded (s : State) (m : Memory) (l : List Byte) : State :=
  { s with fdState := .inFrame, fdCount := BitVec.ofNat 3 l.length, fdBuf := m, outputs := s.outputs ++ rxOks (l.length + 1) }

theorem bytes_write_next {m : Memory} {l : List Byte} {b : Byte} {a : BitVec 3} (ha : a.toNat = l.length)
    (hm : m.bytes 0 l.length = l) : (m.write a b).bytes 0 (l ++ [b]).length = l ++ [b] := by
  have hold : (m.write a b).bytes 0 l.length = m.bytes 0 l.length := by
    refine Memory.bytes_congr fun i hi => ?_
    rw [Memory.read_write, if_neg (by omega)]
  have hnew : (m.write a b).read (0 + l.length) = b := by
    rw [Memory.read_write, if_pos (by omega)]
  rw [List.length_append, List.length_singleton, Memory.bytes_succ, hold, hm, hnew]

theorem toNat_ofNat_of_short {n : Nat} (h : n ≤ 7) : (BitVec.ofNat 3 n).toNat = n := by
  rw [BitVec.toNat_ofNat]
  omega

/-- The sentinel and up to seven payload bytes (41_frame_decoder.md R131, R132). -/
theorem execAll_loads {s : State} (hst : s.fdState = .idle) {l : List Byte} (hl : l.length ≤ 7) :
    ∃ m, m.bytes 0 l.length = l ∧ execAll (rxBytes (s.params.startByte :: l)) s = .next (loaded s m l) := by
  induction l using List.reverseRecOn with
  | nil =>
    refine ⟨s.fdBuf, rfl, ?_⟩
    rw [execAll_rxBytes_cons, receive_of_start hst rfl]
    rfl
  | append_singleton l b ih =>
    rw [List.length_append, List.length_singleton] at hl
    obtain ⟨m, hm, hrun⟩ := ih (by omega)
    have hcount : (BitVec.ofNat 3 l.length).toNat = l.length := toNat_ofNat_of_short (by omega)
    have hlt : (loaded s m l).fdCount < 7#3 := by
      rw [BitVec.lt_def]
      change (BitVec.ofNat 3 l.length).toNat < 7
      omega
    refine ⟨m.write (BitVec.ofNat 3 l.length) b, bytes_write_next hcount hm, ?_⟩
    rw [← List.cons_append, rxBytes_append, execAll_append, hrun, andThen_next, execAll_rxBytes_cons,
      receive_of_payload rfl hlt]
    simp only [loaded, List.length_append, List.length_singleton, rxOks_succ (l.length + 1), ← List.append_assoc,
      BitVec.ofNat_add]
    rfl

/-- An open frame whose eight payload bytes are in the buffer `m`, the last of them not yet answered. -/
def filled (s : State) (m : Memory) : State :=
  { s with fdState := .inFrame, fdCount := 7#3, fdBuf := m, outputs := s.outputs ++ rxOks 8 }

/-- A whole frame ends in the close of the bytes that were fed (41_frame_decoder.md R130). -/
theorem execAll_frame {s : State} (hst : s.fdState = .idle) {data : List Byte} (hdata : data.length = 6) (lo hi : Byte) :
    ∃ m, m.bytes 0 8 = data ++ [lo, hi] ∧ execAll (rxBytes (s.params.startByte :: (data ++ [lo, hi]))) s =
      .next ((filled s m).closeFrame.emit (.response .rx .ok 0#64)) := by
  have hlen : (data ++ [lo]).length = 7 := by rw [List.length_append, hdata]; rfl
  have hsplit : data ++ [lo, hi] = (data ++ [lo]) ++ [hi] := by rw [List.append_assoc]; rfl
  obtain ⟨m, hm, hrun⟩ := execAll_loads hst hlen.le
  have hcount : (loaded s m (data ++ [lo])).fdCount = 7#3 := congrArg (BitVec.ofNat 3) hlen
  have hbytes := bytes_write_next (b := hi) (a := 7#3) hlen.symm hm
  rw [List.length_append, hlen] at hbytes
  refine ⟨m.write 7#3 hi, by rw [hsplit]; exact hbytes, ?_⟩
  rw [hsplit, ← List.cons_append, rxBytes_append, execAll_append, hrun, andThen_next, execAll_rxBytes_cons,
    receive_of_eighth rfl hcount, loaded, hlen]
  rfl

/-! ## What the close finds -/

theorem bytes_of_payload {m : Memory} {data : List Byte} {lo hi : Byte} (hdata : data.length = 6)
    (h : m.bytes 0 8 = data ++ [lo, hi]) : m.bytes 0 6 = data ∧ m.read 6 = lo ∧ m.read 7 = hi := by
  have hparts : m.bytes 0 6 ++ [m.read 6, m.read 7] = data ++ [lo, hi] := h
  obtain ⟨hbytes, hsum⟩ := List.append_inj hparts (by rw [Memory.bytes_length, hdata])
  obtain ⟨hlo, hhi⟩ : m.read 6 = lo ∧ m.read 7 = hi := by simpa using hsum
  exact ⟨hbytes, hlo, hhi⟩

/-- The checksums of a filled buffer agree exactly when the last two bytes are the checksum of the first six. -/
theorem filled_matches_iff {s : State} {m : Memory} {data : List Byte} {lo hi : Byte} (hdata : data.length = 6)
    (h : m.bytes 0 8 = data ++ [lo, hi]) : (filled s m).frameCalc = (filled s m).frameRecv ↔
      (crc16 s.params.crc data).toNat = lo.toNat + 256 * hi.toNat := by
  obtain ⟨hbytes, hlo, hhi⟩ := bytes_of_payload hdata h
  rw [State.frameCalc_eq_frameRecv, filled, hbytes, hlo, hhi]

/-! ## The frame built for a Command (30_encoding.md R84) -/

/-- Its payload bytes: the data bytes, then their checksum, low byte first. -/
def builtPayload (p : Params) (speed : Velocity) (accel decel : Half) : List Byte :=
  dataBytes speed accel decel ++ [(crc16 p.crc (dataBytes speed accel decel)).extractLsb' 0 8,
    (crc16 p.crc (dataBytes speed accel decel)).extractLsb' 8 8]

theorem commandOf_fields (p : Params) (speed : Velocity) (accel decel : Half) :
    speedOf (commandOf p speed accel decel) = speed ∧ accelerationOf (commandOf p speed accel decel) = accel ∧
      decelerationOf (commandOf p speed accel decel) = decel ∧
      checksumOf (commandOf p speed accel decel) = crc16 p.crc (dataBytes speed accel decel) := by
  have hparts : commandOf p speed accel decel = crc16 p.crc (dataBytes speed accel decel) ++ decel ++ accel ++ speed := rfl
  obtain ⟨hsum, hdecel, haccel, hspeed⟩ :=
    (eq_append_four_iff (k₁ := 16) (k₂ := 16) (k₃ := 16) (k₄ := 16)).mp hparts
  exact ⟨hspeed, haccel, hdecel, hsum⟩

theorem payloadBytes_commandOf (p : Params) (speed : Velocity) (accel decel : Half) :
    payloadBytes (commandOf p speed accel decel) = builtPayload p speed accel decel := by
  have hbytes : ∀ i ∈ List.range Config.payloadLen,
      payloadByte (commandOf p speed accel decel) i = (builtPayload p speed accel decel).getD i 0#8 :=
    fun i hi => payloadByte_commandOf p speed accel decel i (List.mem_range.mp hi)
  rw [payloadBytes, List.map_congr_left hbytes]
  rfl

/-- Its checksum field is the checksum of its first six payload bytes. -/
theorem commandOf_valid (p : Params) (speed : Velocity) (accel decel : Half) :
    commandValid p.crc (commandOf p speed accel decel) = true := by
  obtain ⟨-, -, -, hsum⟩ := commandOf_fields p speed accel decel
  have hdata : (payloadBytes (commandOf p speed accel decel)).take Config.dataLen = dataBytes speed accel decel := by
    rw [payloadBytes_commandOf]
    rfl
  rw [commandValid, hsum, hdata, beq_self_eq_true]

section Built

variable {s : State} {speed : Velocity} {accel decel : Half}

theorem execAll_rxFrame (hst : s.fdState = .idle) (speed : Velocity) (accel decel : Half) :
    ∃ m, m.bytes 0 8 = builtPayload s.params speed accel decel ∧
      execAll (rxFrame s.params speed accel decel) s =
        .next ((filled s m).closeFrame.emit (.response .rx .ok 0#64)) :=
  execAll_frame hst rfl _ _

variable {m : Memory} (h : m.bytes 0 8 = builtPayload s.params speed accel decel)
include h

/-- The buffer filled by the frame of a Command is that Command. -/
theorem filled_frameCommand_of_built : (filled s m).frameCommand = commandOf s.params speed accel decel := by
  refine command_ext fun i hi => ?_
  rw [State.payloadByte_frameCommand _ i hi, payloadByte_commandOf _ _ _ _ i hi, ← builtPayload, ← h,
    Memory.bytes_getD _ _ _ hi]
  rfl

theorem filled_matches_of_built : (filled s m).frameCalc = (filled s m).frameRecv := by
  rw [← State.frameCommand_valid, filled_frameCommand_of_built h]
  exact commandOf_valid s.params speed accel decel

end Built

/-! ## What a frame leads to -/

theorem acks_of_ackEvents (p : Params) (b : Byte) :
    (ackEvents p b).filterMap ackByteOf = if p.ackEnable then [b] else [] := by
  rw [ackEvents]
  split <;> rfl

/-- From `s` to `t` a frame has been read: the Commands `new` were stored, and `b` was sent if acknowledgment is enabled. -/
structure FrameRead (s t : State) (new : List Command) (b : Byte) : Prop where
  params : t.params = s.params
  fdState : t.fdState = .idle
  fdCount : t.fdCount = 0#3
  stQ : t.stQ = s.stQ ++ new
  stOvf : t.stOvf = s.stOvf
  acks : t.outputs.filterMap ackByteOf = s.outputs.filterMap ackByteOf ++ (if s.params.ackEnable then [b] else [])

/-- A good frame is stored if there is room (41_frame_decoder.md R134). -/
theorem exists_frameRead_of_built {s : State} (hst : s.fdState = .idle) (hroom : s.stQ.length < s.params.storeDepth)
    (speed : Velocity) (accel decel : Half) : ∃ t, execAll (rxFrame s.params speed accel decel) s = .next t ∧
      FrameRead s t [commandOf s.params speed accel decel] s.params.ackPass := by
  obtain ⟨m, hm, hrun⟩ := execAll_rxFrame hst speed accel decel
  rw [closeFrame_of_stored (filled_matches_of_built hm) hroom, filled_frameCommand_of_built hm] at hrun
  refine ⟨_, hrun, rfl, rfl, rfl, rfl, rfl, ?acks⟩
  case acks => simp [filled, acks_of_ackEvents, ackByteOf]

/-- A frame with other checksum bytes is rejected (41_frame_decoder.md R134). -/
theorem exists_frameRead_of_mismatch {s : State} (hst : s.fdState = .idle) {data : List Byte} (hdata : data.length = 6)
    {lo hi : Byte} (hne : (crc16 s.params.crc data).toNat ≠ lo.toNat + 256 * hi.toNat) :
    ∃ t, execAll (rxBytes (s.params.startByte :: (data ++ [lo, hi]))) s = .next t ∧
      FrameRead s t [] s.params.ackFail := by
  obtain ⟨m, hm, hrun⟩ := execAll_frame hst hdata lo hi
  rw [closeFrame_of_rejected (fun hmatch => hne ((filled_matches_iff hdata hm).mp hmatch))] at hrun
  refine ⟨_, hrun, rfl, rfl, rfl, (List.append_nil _).symm, rfl, ?acks⟩
  case acks => simp [filled, acks_of_ackEvents, ackByteOf]

/-! ## The statements -/

/-- Settles O39. -/
theorem aGoodFrameIsAccepted : Obligations.AGoodFrameIsAccepted := by
  intro s speed accel decel hst hroom
  obtain ⟨t, hrun, hread⟩ := exists_frameRead_of_built hst hroom speed accel decel
  obtain ⟨hspeed, haccel, hdecel, -⟩ := commandOf_fields s.params speed accel decel
  exact ⟨t, commandOf s.params speed accel decel, hrun, hread.stQ, hspeed, haccel, hdecel, commandOf_valid _ _ _ _,
    hread.fdState, hread.fdCount, hread.stOvf, hread.acks⟩

/-- Settles O40: the rejected frame leaves the decoder in Idle and the store as it was, ready for the next one. -/
theorem aBadFrameIsRejectedAndTheNextAccepted : Obligations.ABadFrameIsRejectedAndTheNextAccepted := by
  intro s data lo hi speed accel decel hst hroom hdata hne
  obtain ⟨t, hbad, hread⟩ := exists_frameRead_of_mismatch hst hdata hne
  have hstQ : t.stQ = s.stQ := by rw [hread.stQ, List.append_nil]
  obtain ⟨u, hgood, hread'⟩ :=
    exists_frameRead_of_built hread.fdState (by rwa [hstQ, hread.params]) speed accel decel
  rw [hread.params] at hgood
  refine ⟨t, u, hbad, hstQ, hread.stOvf, hread.fdState, hread.fdCount, hread.acks, hgood, ?stored⟩
  case stored => rw [hread'.stQ, hstQ, hread.params]

/-- Settles O42: each frame leaves the decoder in Idle and takes one place in the store. -/
theorem backToBackFramesAreAllAccepted : Obligations.BackToBackFramesAreAllAccepted := by
  intro s cmds hst hroom
  induction cmds generalizing s with
  | nil => exact ⟨s, rfl, hst, rfl, (List.append_nil _).symm⟩
  | cons c rest ih =>
    rw [List.length_cons] at hroom
    obtain ⟨u, hfirst, hread⟩ := exists_frameRead_of_built hst (by omega) c.1 c.2.1 c.2.2
    have hroom' : u.stQ.length + rest.length ≤ u.params.storeDepth := by
      rw [hread.stQ, hread.params, List.length_append, List.length_singleton]
      omega
    obtain ⟨t, hrest, htst, htovf, htq⟩ := ih u hread.fdState hroom'
    rw [hread.params] at hrest htq
    refine ⟨t, ?run, htst, htovf.trans hread.stOvf, ?stored⟩
    case run => rw [List.flatMap_cons, execAll_append, hfirst, andThen_next, hrest]
    case stored => rw [htq, hread.stQ, List.append_assoc, List.map_cons, List.singleton_append]

end Sys2Proof.Laws
end
